-- ==== Sys2Proof/Config.lean ====
section
/-!
DEFINITION. What the part fixes once, and the one free value of the model.
-/

namespace Sys2Proof.Config

/-- Uptime wraps to 0 after 4,294,967,294 (00_scope.md section 4.1; R163). -/
abbrev uptimeModulus : Nat := 4294967295

/-- The largest power of a field or a sample, in mW (00_scope.md section 4.1). -/
abbrev powerMax : Nat := 150000

/-- The lowest temperature of a field, in 0.1 °C (00_scope.md section 4.1). -/
abbrev temperatureMin : Int := -400

/-- The highest temperature of a field, in 0.1 °C (00_scope.md section 4.1). -/
abbrev temperatureMax : Int := 1500

/-- The vendor code that IDENTIFY reports (R174). -/
abbrev vendorCode : Nat := 0x43

/-- The part code that IDENTIFY reports (R174). -/
abbrev partCode : Nat := 0x3204

/-- The revision that IDENTIFY reports (R174). -/
abbrev revision : Nat := 1

/-- The data bytes of a write transaction that the part stores (R168). -/
abbrev frameBytesMax : Nat := 63

/-- The longest body of a request frame (R168). -/
abbrev requestBodyMax : Nat := 60

/-- DESIGN CHOICE (log 4; safe). The free value from which the orders that the manual leaves open inside an event are
drawn; the state after reset starts from it. It has no body: nothing can be proved of its value. -/
opaque schedule : Nat

end Sys2Proof.Config
end

