-- ==== Sys2Proof/Word.lean ====
section
/-!
DEFINITION. The words of the part's frames, the names of its instances (00_scope.md section 4.3), and tables with one
entry for each instance of a kind.
-/

namespace Sys2Proof

/-- One byte of a frame (11_message_links.md section 11.2). -/
abbrev Byte := BitVec 8

/-- The names of the two link ports (11_message_links.md). -/
inductive Port where
  | platform | system
  deriving DecidableEq, Repr

/-- The instance numbers, in the order of the manual's numbering. -/
def Port.number : Port → Nat
  | .platform => 0
  | .system => 1

/-- The instance of a number, none for a number that names no instance. -/
def Port.ofNumber : Nat → Option Port
  | 0 => some .platform
  | 1 => some .system
  | _ => none

/-- Every instance, in order. -/
def Port.all : List Port := [.platform, .system]

/-- One entry for each of the two link ports (11_message_links.md). -/
structure PerPort (α : Type) where
  platform : α
  system : α
  deriving DecidableEq, Repr

/-- The entry of one instance. -/
def PerPort.get (v : PerPort α) : Port → α
  | .platform => v.platform
  | .system => v.system

/-- The table with one instance's entry replaced. -/
def PerPort.set (v : PerPort α) (i : Port) (x : α) : PerPort α :=
  match i with
  | .platform => { v with platform := x }
  | .system => { v with system := x }

/-- The table whose entry at each instance is f of it. -/
def PerPort.ofFn (f : Port → α) : PerPort α :=
  ⟨f .platform, f .system⟩

/-- The table with f applied to every entry. -/
def PerPort.map (f : α → β) (v : PerPort α) : PerPort β :=
  ⟨f v.platform, f v.system⟩

/-- The names of the three controllable power domains (00_scope.md section 1.2). -/
inductive DomainId where
  | d0 | d1 | d2
  deriving DecidableEq, Repr

/-- The instance numbers, in the order of the manual's numbering. -/
def DomainId.number : DomainId → Nat
  | .d0 => 0
  | .d1 => 1
  | .d2 => 2

/-- The instance of a number, none for a number that names no instance. -/
def DomainId.ofNumber : Nat → Option DomainId
  | 0 => some .d0
  | 1 => some .d1
  | 2 => some .d2
  | _ => none

/-- Every instance, in order. -/
def DomainId.all : List DomainId := [.d0, .d1, .d2]

/-- One entry for each of the three controllable power domains (00_scope.md section 1.2). -/
structure PerDomain (α : Type) where
  d0 : α
  d1 : α
  d2 : α
  deriving DecidableEq, Repr

/-- The entry of one instance. -/
def PerDomain.get (v : PerDomain α) : DomainId → α
  | .d0 => v.d0
  | .d1 => v.d1
  | .d2 => v.d2

/-- The table with one instance's entry replaced. -/
def PerDomain.set (v : PerDomain α) (i : DomainId) (x : α) : PerDomain α :=
  match i with
  | .d0 => { v with d0 := x }
  | .d1 => { v with d1 := x }
  | .d2 => { v with d2 := x }

/-- The table whose entry at each instance is f of it. -/
def PerDomain.ofFn (f : DomainId → α) : PerDomain α :=
  ⟨f .d0, f .d1, f .d2⟩

/-- The table with f applied to every entry. -/
def PerDomain.map (f : α → β) (v : PerDomain α) : PerDomain β :=
  ⟨f v.d0, f v.d1, f v.d2⟩

/-- The names of the four skin zones. -/
inductive ZoneId where
  | z0 | z1 | z2 | z3
  deriving DecidableEq, Repr

/-- The instance numbers, in the order of the manual's numbering. -/
def ZoneId.number : ZoneId → Nat
  | .z0 => 0
  | .z1 => 1
  | .z2 => 2
  | .z3 => 3

/-- The instance of a number, none for a number that names no instance. -/
def ZoneId.ofNumber : Nat → Option ZoneId
  | 0 => some .z0
  | 1 => some .z1
  | 2 => some .z2
  | 3 => some .z3
  | _ => none

/-- Every instance, in order. -/
def ZoneId.all : List ZoneId := [.z0, .z1, .z2, .z3]

/-- One entry for each of the four skin zones. -/
structure PerZone (α : Type) where
  z0 : α
  z1 : α
  z2 : α
  z3 : α
  deriving DecidableEq, Repr

/-- The entry of one instance. -/
def PerZone.get (v : PerZone α) : ZoneId → α
  | .z0 => v.z0
  | .z1 => v.z1
  | .z2 => v.z2
  | .z3 => v.z3

/-- The table with one instance's entry replaced. -/
def PerZone.set (v : PerZone α) (i : ZoneId) (x : α) : PerZone α :=
  match i with
  | .z0 => { v with z0 := x }
  | .z1 => { v with z1 := x }
  | .z2 => { v with z2 := x }
  | .z3 => { v with z3 := x }

/-- The table whose entry at each instance is f of it. -/
def PerZone.ofFn (f : ZoneId → α) : PerZone α :=
  ⟨f .z0, f .z1, f .z2, f .z3⟩

/-- The table with f applied to every entry. -/
def PerZone.map (f : α → β) (v : PerZone α) : PerZone β :=
  ⟨f v.z0, f v.z1, f v.z2, f v.z3⟩

/-- The names of the eight temperature channels. -/
inductive TempId where
  | t0 | t1 | t2 | t3 | t4 | t5 | t6 | t7
  deriving DecidableEq, Repr

/-- The instance numbers, in the order of the manual's numbering. -/
def TempId.number : TempId → Nat
  | .t0 => 0
  | .t1 => 1
  | .t2 => 2
  | .t3 => 3
  | .t4 => 4
  | .t5 => 5
  | .t6 => 6
  | .t7 => 7

/-- The instance of a number, none for a number that names no instance. -/
def TempId.ofNumber : Nat → Option TempId
  | 0 => some .t0
  | 1 => some .t1
  | 2 => some .t2
  | 3 => some .t3
  | 4 => some .t4
  | 5 => some .t5
  | 6 => some .t6
  | 7 => some .t7
  | _ => none

/-- Every instance, in order. -/
def TempId.all : List TempId := [.t0, .t1, .t2, .t3, .t4, .t5, .t6, .t7]

/-- One entry for each of the eight temperature channels. -/
structure PerTemp (α : Type) where
  t0 : α
  t1 : α
  t2 : α
  t3 : α
  t4 : α
  t5 : α
  t6 : α
  t7 : α
  deriving DecidableEq, Repr

/-- The entry of one instance. -/
def PerTemp.get (v : PerTemp α) : TempId → α
  | .t0 => v.t0
  | .t1 => v.t1
  | .t2 => v.t2
  | .t3 => v.t3
  | .t4 => v.t4
  | .t5 => v.t5
  | .t6 => v.t6
  | .t7 => v.t7

/-- The table with one instance's entry replaced. -/
def PerTemp.set (v : PerTemp α) (i : TempId) (x : α) : PerTemp α :=
  match i with
  | .t0 => { v with t0 := x }
  | .t1 => { v with t1 := x }
  | .t2 => { v with t2 := x }
  | .t3 => { v with t3 := x }
  | .t4 => { v with t4 := x }
  | .t5 => { v with t5 := x }
  | .t6 => { v with t6 := x }
  | .t7 => { v with t7 := x }

/-- The table whose entry at each instance is f of it. -/
def PerTemp.ofFn (f : TempId → α) : PerTemp α :=
  ⟨f .t0, f .t1, f .t2, f .t3, f .t4, f .t5, f .t6, f .t7⟩

/-- The table with f applied to every entry. -/
def PerTemp.map (f : α → β) (v : PerTemp α) : PerTemp β :=
  ⟨f v.t0, f v.t1, f v.t2, f v.t3, f v.t4, f v.t5, f v.t6, f v.t7⟩

/-- The names of the five power channels. -/
inductive PowerId where
  | pm0 | pm1 | pm2 | pm3 | pm4
  deriving DecidableEq, Repr

/-- The instance numbers, in the order of the manual's numbering. -/
def PowerId.number : PowerId → Nat
  | .pm0 => 0
  | .pm1 => 1
  | .pm2 => 2
  | .pm3 => 3
  | .pm4 => 4

/-- The instance of a number, none for a number that names no instance. -/
def PowerId.ofNumber : Nat → Option PowerId
  | 0 => some .pm0
  | 1 => some .pm1
  | 2 => some .pm2
  | 3 => some .pm3
  | 4 => some .pm4
  | _ => none

/-- Every instance, in order. -/
def PowerId.all : List PowerId := [.pm0, .pm1, .pm2, .pm3, .pm4]

/-- One entry for each of the five power channels. -/
structure PerPower (α : Type) where
  pm0 : α
  pm1 : α
  pm2 : α
  pm3 : α
  pm4 : α
  deriving DecidableEq, Repr

/-- The entry of one instance. -/
def PerPower.get (v : PerPower α) : PowerId → α
  | .pm0 => v.pm0
  | .pm1 => v.pm1
  | .pm2 => v.pm2
  | .pm3 => v.pm3
  | .pm4 => v.pm4

/-- The table with one instance's entry replaced. -/
def PerPower.set (v : PerPower α) (i : PowerId) (x : α) : PerPower α :=
  match i with
  | .pm0 => { v with pm0 := x }
  | .pm1 => { v with pm1 := x }
  | .pm2 => { v with pm2 := x }
  | .pm3 => { v with pm3 := x }
  | .pm4 => { v with pm4 := x }

/-- The table whose entry at each instance is f of it. -/
def PerPower.ofFn (f : PowerId → α) : PerPower α :=
  ⟨f .pm0, f .pm1, f .pm2, f .pm3, f .pm4⟩

/-- The table with f applied to every entry. -/
def PerPower.map (f : α → β) (v : PerPower α) : PerPower β :=
  ⟨f v.pm0, f v.pm1, f v.pm2, f v.pm3, f v.pm4⟩

/-- The names of the four board input lines, numbered in this order. -/
inductive InputId where
  | lid | acin | motion | contact
  deriving DecidableEq, Repr

/-- The instance numbers, in the order of the manual's numbering. -/
def InputId.number : InputId → Nat
  | .lid => 0
  | .acin => 1
  | .motion => 2
  | .contact => 3

/-- The instance of a number, none for a number that names no instance. -/
def InputId.ofNumber : Nat → Option InputId
  | 0 => some .lid
  | 1 => some .acin
  | 2 => some .motion
  | 3 => some .contact
  | _ => none

/-- Every instance, in order. -/
def InputId.all : List InputId := [.lid, .acin, .motion, .contact]

/-- One entry for each of the four board input lines, numbered in this order. -/
structure PerInput (α : Type) where
  lid : α
  acin : α
  motion : α
  contact : α
  deriving DecidableEq, Repr

/-- The entry of one instance. -/
def PerInput.get (v : PerInput α) : InputId → α
  | .lid => v.lid
  | .acin => v.acin
  | .motion => v.motion
  | .contact => v.contact

/-- The table with one instance's entry replaced. -/
def PerInput.set (v : PerInput α) (i : InputId) (x : α) : PerInput α :=
  match i with
  | .lid => { v with lid := x }
  | .acin => { v with acin := x }
  | .motion => { v with motion := x }
  | .contact => { v with contact := x }

/-- The table whose entry at each instance is f of it. -/
def PerInput.ofFn (f : InputId → α) : PerInput α :=
  ⟨f .lid, f .acin, f .motion, f .contact⟩

/-- The table with f applied to every entry. -/
def PerInput.map (f : α → β) (v : PerInput α) : PerInput β :=
  ⟨f v.lid, f v.acin, f v.motion, f v.contact⟩

/-- The names of the four throttle lines. -/
inductive LineId where
  | thr0 | thr1 | thr2 | thr3
  deriving DecidableEq, Repr

/-- The instance numbers, in the order of the manual's numbering. -/
def LineId.number : LineId → Nat
  | .thr0 => 0
  | .thr1 => 1
  | .thr2 => 2
  | .thr3 => 3

/-- The instance of a number, none for a number that names no instance. -/
def LineId.ofNumber : Nat → Option LineId
  | 0 => some .thr0
  | 1 => some .thr1
  | 2 => some .thr2
  | 3 => some .thr3
  | _ => none

/-- Every instance, in order. -/
def LineId.all : List LineId := [.thr0, .thr1, .thr2, .thr3]

/-- One entry for each of the four throttle lines. -/
structure PerLine (α : Type) where
  thr0 : α
  thr1 : α
  thr2 : α
  thr3 : α
  deriving DecidableEq, Repr

/-- The entry of one instance. -/
def PerLine.get (v : PerLine α) : LineId → α
  | .thr0 => v.thr0
  | .thr1 => v.thr1
  | .thr2 => v.thr2
  | .thr3 => v.thr3

/-- The table with one instance's entry replaced. -/
def PerLine.set (v : PerLine α) (i : LineId) (x : α) : PerLine α :=
  match i with
  | .thr0 => { v with thr0 := x }
  | .thr1 => { v with thr1 := x }
  | .thr2 => { v with thr2 := x }
  | .thr3 => { v with thr3 := x }

/-- The table whose entry at each instance is f of it. -/
def PerLine.ofFn (f : LineId → α) : PerLine α :=
  ⟨f .thr0, f .thr1, f .thr2, f .thr3⟩

/-- The table with f applied to every entry. -/
def PerLine.map (f : α → β) (v : PerLine α) : PerLine β :=
  ⟨f v.thr0, f v.thr1, f v.thr2, f v.thr3⟩

/-- The names of the five profile columns, numbered in this order. -/
inductive Column where
  | safe | unsettled | desk | lap | bag
  deriving DecidableEq, Repr

/-- The instance numbers, in the order of the manual's numbering. -/
def Column.number : Column → Nat
  | .safe => 0
  | .unsettled => 1
  | .desk => 2
  | .lap => 3
  | .bag => 4

/-- The instance of a number, none for a number that names no instance. -/
def Column.ofNumber : Nat → Option Column
  | 0 => some .safe
  | 1 => some .unsettled
  | 2 => some .desk
  | 3 => some .lap
  | 4 => some .bag
  | _ => none

/-- Every instance, in order. -/
def Column.all : List Column := [.safe, .unsettled, .desk, .lap, .bag]

/-- One entry for each of the five profile columns, numbered in this order. -/
structure PerColumn (α : Type) where
  safe : α
  unsettled : α
  desk : α
  lap : α
  bag : α
  deriving DecidableEq, Repr

/-- The entry of one instance. -/
def PerColumn.get (v : PerColumn α) : Column → α
  | .safe => v.safe
  | .unsettled => v.unsettled
  | .desk => v.desk
  | .lap => v.lap
  | .bag => v.bag

/-- The table with one instance's entry replaced. -/
def PerColumn.set (v : PerColumn α) (i : Column) (x : α) : PerColumn α :=
  match i with
  | .safe => { v with safe := x }
  | .unsettled => { v with unsettled := x }
  | .desk => { v with desk := x }
  | .lap => { v with lap := x }
  | .bag => { v with bag := x }

/-- The table whose entry at each instance is f of it. -/
def PerColumn.ofFn (f : Column → α) : PerColumn α :=
  ⟨f .safe, f .unsettled, f .desk, f .lap, f .bag⟩

/-- The table with f applied to every entry. -/
def PerColumn.map (f : α → β) (v : PerColumn α) : PerColumn β :=
  ⟨f v.safe, f v.unsettled, f v.desk, f v.lap, f v.bag⟩

end Sys2Proof
end

