-- ==== Sys2Proof/Syntax.lean ====
section
/-!
DEFINITION. The commands of the part: one constructor for each row of spec/opcode_table.json.

Events carry what the outside world brings with them; transactions carry the pins they run on and the address they call,
and requests the body of their frame.
-/

namespace Sys2Proof

/-- What the temperature converter finds at the end of a conversion, before the range test (R5): an open pair, a shorted
pair, or a result in 0.1 °C of any size. -/
inductive RawResult where
  | openPair
  | shortPair
  | degrees (tenths : Int)
  deriving DecidableEq, Repr

/-- What a bus transaction calls: the pins of a port, and the 7-bit address sent on them (R167). -/
structure Call where
  port : Port
  address : BitVec 7
  deriving DecidableEq, Repr

/-- The two edges of a reset (R167, 00_scope.md section 3). -/
inductive ResetEdge where
  /-- Power comes up, or RST_N goes low: every block abandons its work, and senses no pin. -/
  | low
  /-- The end of reset, with the level of ADRSEL found there (true is high). -/
  | ended (adrsel : Bool)
  deriving DecidableEq, Repr

/-- The commands. A request's `body` is bytes 2 … L+1 of its frame (section 11.2). -/
inductive Instr where
  /-- RESET: one of its edges, and the levels of the input and throttle pins found there (true is high); the end alone
  stands for a whole reset (log 5). -/
  | reset (edge : ResetEdge) (pins : PerInput Bool) (lines : PerLine Bool)
  | intervalTimerExpiry (c : TempId)
  | conversionEnd (result : RawResult)
  /-- SAMPLE_ARRIVAL: a power in mW, or none for "invalid" (section 1.6). -/
  | sampleArrival (n : PowerId) (sample : Option Nat)
  | tripTimerExpiry
  /-- INPUT_LEVEL_CHANGE: the pin's new level, true is high (R22). -/
  | inputLevelChange (l : InputId) (high : Bool)
  | debounceExpiry (l : InputId)
  | dwellExpiry
  | zoneUpdate (z : ZoneId)
  | settleTimerExpiry (d : DomainId)
  /-- SENSED_LEVEL_CHANGE: the throttle pin's new level, true is high (R130). -/
  | sensedLevelChange (l : LineId) (high : Bool)
  | readbackWindowExpiry (l : LineId)
  /-- BAD_FRAME: the data bytes that the write transaction carried (R168). -/
  | badFrame (call : Call) (bytes : List Byte)
  | unknown (call : Call) (kind : Byte) (body : List Byte)
  /-- REPLY_READ: a read transaction in which the reader clocks this many bytes (R172). -/
  | replyRead (call : Call) (clocked : Nat)
  | identify (call : Call) (body : List Byte)
  | readStatus (call : Call) (body : List Byte)
  | readGrants (call : Call) (body : List Byte)
  | readDomain (call : Call) (body : List Byte)
  | readZone (call : Call) (body : List Byte)
  | readChannel (call : Call) (body : List Byte)
  | readFaults (call : Call) (body : List Byte)
  | readNotices (call : Call) (body : List Byte)
  | clearNotices (call : Call) (body : List Byte)
  | setNoticeMask (call : Call) (body : List Byte)
  | clearFaults (call : Call) (body : List Byte)
  | setChannel (call : Call) (body : List Byte)
  | setPowerChannel (call : Call) (body : List Byte)
  | setInput (call : Call) (body : List Byte)
  | setPostureTiming (call : Call) (body : List Byte)
  | setZone (call : Call) (body : List Byte)
  | setLadder (call : Call) (body : List Byte)
  | setProfile (call : Call) (body : List Byte)
  | setSkinLimits (call : Call) (body : List Byte)
  | setDomain (call : Call) (body : List Byte)
  | setRouting (call : Call) (body : List Byte)
  | setSupplyConfig (call : Call) (body : List Byte)
  | supplyReport (call : Call) (body : List Byte)
  | setCap (call : Call) (body : List Byte)
  | postureHint (call : Call) (body : List Byte)
  | forceLine (call : Call) (body : List Byte)
  | activate (call : Call) (body : List Byte)
  | deactivate (call : Call) (body : List Byte)
  deriving DecidableEq, Repr

end Sys2Proof
end

