-- ==== Sys2Proof/Decode.lean ====
section
/-!
DEFINITION. From the bytes of a write transaction to the command it makes (R168, checks 1 and 2 of R169, section 11.6),
and back. The opcode table gives no row any bits, so `decodeTableWord` reads no command from a table word (log 22).
-/

namespace Sys2Proof

/-- The kinds of request of the catalogue (section 11.6). -/
inductive Kind where
  | identify | readStatus | readGrants | readDomain | readZone | readChannel | readFaults | readNotices
  | clearNotices | setNoticeMask | clearFaults
  | setChannel | setPowerChannel | setInput | setPostureTiming | setZone | setLadder | setProfile | setSkinLimits
  | setDomain | setRouting | setSupplyConfig
  | supplyReport | setCap | postureHint | forceLine | activate | deactivate
  deriving DecidableEq, Repr

/-- The kind code of a request, byte 0 of its frame (section 11.6). -/
def kindCode : Kind → Byte
  | .identify => 0x01
  | .readStatus => 0x02
  | .readGrants => 0x03
  | .readDomain => 0x04
  | .readZone => 0x05
  | .readChannel => 0x06
  | .readFaults => 0x07
  | .readNotices => 0x08
  | .clearNotices => 0x10
  | .setNoticeMask => 0x11
  | .clearFaults => 0x12
  | .setChannel => 0x20
  | .setPowerChannel => 0x21
  | .setInput => 0x22
  | .setPostureTiming => 0x23
  | .setZone => 0x24
  | .setLadder => 0x25
  | .setProfile => 0x26
  | .setSkinLimits => 0x27
  | .setDomain => 0x28
  | .setRouting => 0x29
  | .setSupplyConfig => 0x2A
  | .supplyReport => 0x30
  | .setCap => 0x31
  | .postureHint => 0x32
  | .forceLine => 0x33
  | .activate => 0x40
  | .deactivate => 0x41

/-- The kind of a code, none where the catalogue has none (check 2 of R169). -/
def kindOfCode (code : Byte) : Option Kind :=
  match code.toNat with
  | 0x01 => some .identify
  | 0x02 => some .readStatus
  | 0x03 => some .readGrants
  | 0x04 => some .readDomain
  | 0x05 => some .readZone
  | 0x06 => some .readChannel
  | 0x07 => some .readFaults
  | 0x08 => some .readNotices
  | 0x10 => some .clearNotices
  | 0x11 => some .setNoticeMask
  | 0x12 => some .clearFaults
  | 0x20 => some .setChannel
  | 0x21 => some .setPowerChannel
  | 0x22 => some .setInput
  | 0x23 => some .setPostureTiming
  | 0x24 => some .setZone
  | 0x25 => some .setLadder
  | 0x26 => some .setProfile
  | 0x27 => some .setSkinLimits
  | 0x28 => some .setDomain
  | 0x29 => some .setRouting
  | 0x2A => some .setSupplyConfig
  | 0x30 => some .supplyReport
  | 0x31 => some .setCap
  | 0x32 => some .postureHint
  | 0x33 => some .forceLine
  | 0x40 => some .activate
  | 0x41 => some .deactivate
  | _ => none

/-- The request command of a kind. -/
def requestOf (kind : Kind) (call : Call) (body : List Byte) : Instr :=
  match kind with
  | .identify => .identify call body
  | .readStatus => .readStatus call body
  | .readGrants => .readGrants call body
  | .readDomain => .readDomain call body
  | .readZone => .readZone call body
  | .readChannel => .readChannel call body
  | .readFaults => .readFaults call body
  | .readNotices => .readNotices call body
  | .clearNotices => .clearNotices call body
  | .setNoticeMask => .setNoticeMask call body
  | .clearFaults => .clearFaults call body
  | .setChannel => .setChannel call body
  | .setPowerChannel => .setPowerChannel call body
  | .setInput => .setInput call body
  | .setPostureTiming => .setPostureTiming call body
  | .setZone => .setZone call body
  | .setLadder => .setLadder call body
  | .setProfile => .setProfile call body
  | .setSkinLimits => .setSkinLimits call body
  | .setDomain => .setDomain call body
  | .setRouting => .setRouting call body
  | .setSupplyConfig => .setSupplyConfig call body
  | .supplyReport => .supplyReport call body
  | .setCap => .setCap call body
  | .postureHint => .postureHint call body
  | .forceLine => .forceLine call body
  | .activate => .activate call body
  | .deactivate => .deactivate call body

/-- The kind, call and body of a request command, none of any other command. -/
def requestParts : Instr → Option (Kind × Call × List Byte)
  | .reset _ _ _ => none
  | .intervalTimerExpiry _ => none
  | .conversionEnd _ => none
  | .sampleArrival _ _ => none
  | .tripTimerExpiry => none
  | .inputLevelChange _ _ => none
  | .debounceExpiry _ => none
  | .dwellExpiry => none
  | .zoneUpdate _ => none
  | .settleTimerExpiry _ => none
  | .sensedLevelChange _ _ => none
  | .readbackWindowExpiry _ => none
  | .badFrame _ _ => none
  | .unknown _ _ _ => none
  | .replyRead _ _ => none
  | .identify p b => some (.identify, p, b)
  | .readStatus p b => some (.readStatus, p, b)
  | .readGrants p b => some (.readGrants, p, b)
  | .readDomain p b => some (.readDomain, p, b)
  | .readZone p b => some (.readZone, p, b)
  | .readChannel p b => some (.readChannel, p, b)
  | .readFaults p b => some (.readFaults, p, b)
  | .readNotices p b => some (.readNotices, p, b)
  | .clearNotices p b => some (.clearNotices, p, b)
  | .setNoticeMask p b => some (.setNoticeMask, p, b)
  | .clearFaults p b => some (.clearFaults, p, b)
  | .setChannel p b => some (.setChannel, p, b)
  | .setPowerChannel p b => some (.setPowerChannel, p, b)
  | .setInput p b => some (.setInput, p, b)
  | .setPostureTiming p b => some (.setPostureTiming, p, b)
  | .setZone p b => some (.setZone, p, b)
  | .setLadder p b => some (.setLadder, p, b)
  | .setProfile p b => some (.setProfile, p, b)
  | .setSkinLimits p b => some (.setSkinLimits, p, b)
  | .setDomain p b => some (.setDomain, p, b)
  | .setRouting p b => some (.setRouting, p, b)
  | .setSupplyConfig p b => some (.setSupplyConfig, p, b)
  | .supplyReport p b => some (.supplyReport, p, b)
  | .setCap p b => some (.setCap, p, b)
  | .postureHint p b => some (.postureHint, p, b)
  | .forceLine p b => some (.forceLine, p, b)
  | .activate p b => some (.activate, p, b)
  | .deactivate p b => some (.deactivate, p, b)

/-- The sum of the bytes of a frame, modulo 256 (section 11.2). -/
def byteSum : List Byte → Byte
  | [] => 0
  | b :: rest => b + byteSum rest

/-- The bytes of a frame: kind, length, body, and the check byte that makes the whole sum to a multiple of 256
(section 11.2). -/
def frame (kind : Byte) (body : List Byte) : List Byte :=
  let head := kind :: BitVec.ofNat 8 body.length :: body
  head ++ [-(byteSum head)]

/-- Whether a write transaction that carried these data bytes leaves a well-formed frame (R168): 3 to 63 bytes, none
refused, L at most 60, L + 3 bytes in all, and a sum that is a multiple of 256. -/
def frameWellFormed (bytes : List Byte) : Bool :=
  match bytes with
  | _ :: len :: _ =>
    decide (3 ≤ bytes.length) && decide (bytes.length ≤ Config.frameBytesMax)
      && decide (len.toNat ≤ Config.requestBodyMax) && decide (bytes.length = len.toNat + 3) && byteSum bytes == 0
  | _ => false

/-- The body of a well-formed frame: what stands between the length byte and the check byte. -/
def frameBody (bytes : List Byte) : List Byte := (bytes.drop 2).dropLast

/-- The command that a write transaction makes of its call and its data bytes (checks 1 and 2 of R169). -/
def decodeWrite (call : Call) (bytes : List Byte) : Instr :=
  if frameWellFormed bytes then
    match kindOfCode (bytes.headD 0) with
    | some kind => requestOf kind call (frameBody bytes)
    | none => .unknown call (bytes.headD 0) (frameBody bytes)
  else .badFrame call bytes

/-- The write transaction that makes a command, none for a command that no write transaction makes. -/
def encodeWrite (i : Instr) : Option (Call × List Byte) :=
  match i with
  | .badFrame p bytes => some (p, bytes)
  | .unknown p kind body => some (p, frame kind body)
  | i => (requestParts i).map fun r => (r.2.1, frame (kindCode r.1) r.2.2)

/-- The command that a table word spells. No row of the table has bits, so there is none (log 22). -/
def decodeTableWord (_nbits _w : Nat) : Option Instr := none

end Sys2Proof
end

