-- ==== Sys2Proof/Machine/State.lean ====
section
/-!
DEFINITION. Everything the manual gives the part to hold, block by block, and the state after reset.

Powers are in mW, temperatures in 0.1 °C, energies in µJ, times in ms (00_scope.md section 4.1).
-/

namespace Sys2Proof.Machine

open Sys2Proof

/-! ## Timers -/

/-- A running timer: the time since it was started and the duration it was started with. -/
structure Timer where
  elapsed : Nat
  duration : Nat
  deriving DecidableEq, Repr

/-! ## Sensing unit (chapter 1) -/

/-- The sensor type at a temperature pair (section 1.1). -/
inductive SensorKind where
  | diode | thermistor
  deriving DecidableEq, Repr

/-- The states of a channel (R1, section 1.6); a power channel is never DISABLED. -/
inductive ChannelState where
  | disabled | starting | valid | holding | failed
  deriving DecidableEq, Repr

/-- How a bad conversion was bad (R5). -/
inductive BadIndication where
  | openPair | shortPair | high | low
  deriving DecidableEq, Repr

/-- The configuration of a temperature channel, written whole by SET_CHANNEL (section 1.1). -/
structure ChannelConfig where
  enabled : Bool
  kind : SensorKind
  interval : Nat
  offset : Int
  holdCount : Nat
  failValue : Int
  deriving DecidableEq, Repr

/-- A temperature channel record (section 1.1) with its interval timer (R2). -/
structure TempChannel where
  cfg : ChannelConfig
  state : ChannelState
  value : Option Int
  badRun : Nat
  firstBad : Option BadIndication
  lastGood : Option Nat
  timer : Option Timer
  deriving DecidableEq, Repr

/-- The conversion in progress: what the converter remembers while converting (section 1.3). -/
structure Conversion where
  channel : TempId
  kind : SensorKind
  offset : Int
  voided : Bool
  timer : Timer
  deriving DecidableEq, Repr

/-- A power channel record (section 1.6) with its sample timer (R15). PM3's fail value is `State.restFail`. -/
structure PowerChannel where
  interval : Nat
  holdCount : Nat
  state : ChannelState
  value : Option Nat
  badRun : Nat
  timer : Timer
  deriving DecidableEq, Repr

/-! ## Posture classifier (chapter 2) -/

/-- Which pin level of an input or of a throttle line means asserted. -/
inductive Polarity where
  | activeHigh | activeLow
  deriving DecidableEq, Repr

/-- The trigger selection of an input line (section 2.1). -/
inductive Trigger where
  | none | rise | fall | both
  deriving DecidableEq, Repr

/-- The debounced state of an input line (section 2.1). -/
inductive LineState where
  | undetermined | asserted | deasserted
  deriving DecidableEq, Repr

/-- The configuration of an input line, written whole by SET_INPUT (section 2.1). -/
structure InputConfig where
  polarity : Polarity
  debounce : Nat
  trigger : Trigger
  deriving DecidableEq, Repr

/-- A running debounce timer with its tentative level, true is asserted (R23). -/
structure Debounce where
  timer : Timer
  tentative : Bool
  deriving DecidableEq, Repr

/-- An input line record (section 2.1) with the level at its pin (R22). -/
structure InputLine where
  cfg : InputConfig
  pinHigh : Bool
  state : LineState
  debouncing : Option Debounce
  deriving DecidableEq, Repr

/-- The postures that classification yields and a hint names (section 2.3). -/
inductive Place where
  | desk | lap | bag
  deriving DecidableEq, Repr

/-- A committed or effective posture (section 2.4). -/
inductive Posture where
  | unsettled | desk | lap | bag
  deriving DecidableEq, Repr

/-- A hint in the slot, with the port it came from (section 2.5). -/
structure Hint where
  place : Place
  origin : Port
  deriving DecidableEq, Repr

/-! ## Profile table (chapter 3) -/

/-- A domain entry: sustained limit, burst limit and window (section 3.2). -/
structure Entry where
  s : Nat
  b : Nat
  w : Nat
  deriving DecidableEq, Repr

/-! ## Zone estimator (chapter 4) -/

/-- A set of the controllable domains. -/
abbrev DomainSet := PerDomain Bool

/-- A step of a ladder (section 4.6). -/
structure LadderStep where
  offset : Nat
  percent : Nat
  deriving DecidableEq, Repr

/-- A source of a zone (section 4.1). -/
structure Source where
  channel : TempId
  weight : Nat
  deriving DecidableEq, Repr

/-- The states of a zone (R54). -/
inductive ZoneState where
  | off | starting | active | tripped
  deriving DecidableEq, Repr

/-- The configuration of a zone, written whole by SET_ZONE (section 4.1). -/
structure ZoneConfig where
  enabled : Bool
  sources : List Source
  influence : DomainSet
  alpha : Nat
  interval : Nat
  hysteresis : Nat
  descentDwell : Nat
  tripMargin : Nat
  deriving DecidableEq, Repr

/-- A zone record (section 4.1) with its update timer (R55) and whether its ZONE_BLIND is present (R63). -/
structure Zone where
  cfg : ZoneConfig
  ladder : List LadderStep
  state : ZoneState
  estimate : Option Int
  position : Nat
  held : Nat
  percent : Nat
  degraded : Bool
  blind : Bool
  timer : Option Timer
  deriving DecidableEq, Repr

/-! ## Headroom accounts (chapter 5) -/

/-- The states of an account (R81). -/
inductive AccountState where
  | sustained | burst
  deriving DecidableEq, Repr

/-- An account (section 5.1); its recover percent is in the domain record. -/
structure Account where
  s : Nat
  b : Nat
  w : Nat
  capacity : Nat
  credit : Nat
  state : AccountState
  percent : Nat
  sEff : Nat
  bEff : Nat
  threshold : Nat
  allowance : Nat
  deriving DecidableEq, Repr

/-- The domain record, written whole by SET_DOMAIN (R114): the recover percent (section 5.8), the arbitration fields
(section 6.4), Lmin and the compliance fields (section 7.3). -/
structure DomainRecord where
  recover : Nat
  arbitrated : Bool
  priority : Nat
  floor : Nat
  lmin : Nat
  tolerance : Nat
  aboveN : Nat
  belowM : Nat
  settleTime : Nat
  deriving DecidableEq, Repr

/-! ## Supply arbiter (chapter 6) -/

/-- The source of the supply (R96). -/
inductive PowerSource where
  | battery | adapter
  deriving DecidableEq, Repr

/-- The supply report (section 6.1). -/
structure SupplyReport where
  rating : Nat
  derate : Nat
  battery : Option Nat
  received : Bool
  deriving DecidableEq, Repr

/-- The supply configuration, written whole by SET_SUPPLY_CONFIG (section 6.2). -/
structure SupplyConfig where
  margin : Nat
  unknownRating : Nat
  batteryDefault : Nat
  tripPercent : Nat
  tripTime : Nat
  deriving DecidableEq, Repr

/-- The arbiter's source, available power, pool, demands and shares (chapter 6). -/
structure Allocation where
  source : PowerSource
  available : Nat
  pool : Nat
  demand : PerDomain Nat
  share : PerDomain (Option Nat)
  deriving DecidableEq, Repr

/-- The states of the supply trip watch; the trip timer runs in TIMING and in no other state (R105). -/
inductive WatchState where
  | clear
  | timing (timer : Timer)
  | tripped
  deriving DecidableEq, Repr

/-- The supply trip watch with the power of the most recent delivery it has judged (R105). -/
structure TripWatch where
  state : WatchState
  lastSys : Nat
  deriving DecidableEq, Repr

/-! ## Limit resolver (chapter 7) -/

/-- The caps of a domain (section 7.2). -/
structure Caps where
  capP : Option Nat
  capS : Option Nat
  deriving DecidableEq, Repr

/-- The resolver's own copies of a domain's contributors and thermal percent (R110). -/
structure Contributors where
  allowance : Nat
  share : Option Nat
  capP : Option Nat
  capS : Option Nat
  percent : Nat
  deriving DecidableEq, Repr

/-- Who set a grant (R116). -/
inductive Owner where
  | thermal | profile | supply | capP | capS
  deriving DecidableEq, Repr

/-- A grant record (R117); its domain is its place in the table. -/
structure Grant where
  limit : Nat
  owner : Owner
  floorApplied : Bool
  changeCount : Nat
  changedAt : Nat
  deriving DecidableEq, Repr

/-- The compliance states (section 7.5). -/
inductive ComplianceState where
  | normal | excess
  deriving DecidableEq, Repr

/-- A domain's compliance (R120). -/
structure Compliance where
  state : ComplianceState
  above : Nat
  below : Nat
  settle : Option Timer
  deriving DecidableEq, Repr

/-! ## Throttle lines (chapter 8) -/

/-- How a throttle pin is driven (section 8.1). -/
inductive OutputType where
  | openDrain | pushPull
  deriving DecidableEq, Repr

/-- What a drive follows (R132). -/
inductive Cause where
  | none | supplyTrip | zoneTrip | excess | floor | manual
  deriving DecidableEq, Repr

/-- What the part puts on a throttle pin (R129). -/
inductive PinOut where
  | low | high | highImpedance
  deriving DecidableEq, Repr

/-- The configuration of a throttle line, written whole by SET_ROUTING (section 8.1). -/
structure LineConfig where
  routing : DomainSet
  output : OutputType
  polarity : Polarity
  window : Nat
  deriving DecidableEq, Repr

/-- Which protective sources are active for a line (R131). -/
structure SourceView where
  supplyTrip : Bool
  zoneTrip : Bool
  excess : Bool
  floor : Bool
  deriving DecidableEq, Repr

/-- A line record (section 8.1) with its source view, its pin, its readback window timer and whether its LINE_STUCK is
present. Levels are true for asserted, `pinHigh` true for high. -/
structure ThrottleLine where
  cfg : LineConfig
  manual : Bool
  view : SourceView
  drive : Bool
  cause : Cause
  pinOut : PinOut
  pinHigh : Bool
  sensed : Bool
  external : Bool
  stuck : Bool
  window : Option Timer
  deriving DecidableEq, Repr

/-! ## Fault log and mode (chapter 9) -/

/-- The kinds of fault (R142). -/
inductive FaultKind where
  | tchFailed | pchFailed | convOverrun | zoneTrip | zoneBlind | excess | lineStuck | supplyTrip
  deriving DecidableEq, Repr

/-- The severity of a kind, and the summary of the log (R148). -/
inductive Severity where
  | clear | warning | fatal
  deriving DecidableEq, Repr

/-- A fault record (section 9.2); `present` is absent for an event kind. -/
structure FaultRecord where
  kind : FaultKind
  subject : Nat
  severity : Severity
  present : Option Bool
  count : Nat
  firstTime : Nat
  lastTime : Nat
  firstValue : Option Int
  deriving DecidableEq, Repr

/-- The operating mode (section 9.6). -/
inductive Mode where
  | safe | active
  deriving DecidableEq, Repr

/-! ## Notices and links (chapters 10 and 11) -/

/-- The notice kinds (R156). -/
inductive NoticeKind where
  | grant | posture | hintDropped | ladder | trip | throttle | fault | mode | burst | inLid | inAcin | inMotion
  | inContact
  deriving DecidableEq, Repr

/-- A set of notice kinds; bit n stands for the kind at position n of section 11.7, as the set travels. -/
abbrev NoticeSet := BitVec 13

/-- A port's pending set, mask set and attention line, true is asserted (chapter 10). -/
structure NoticePort where
  pending : NoticeSet
  mask : NoticeSet
  attention : Bool
  deriving DecidableEq, Repr

/-- A port's receive buffer, how many data bytes of its latest write transaction were refused (R168), and its reply slot
(section 11.1); and the bytes the part sent in the port's latest read transaction (the model's own field, log 10). -/
structure Link where
  buffer : List Byte
  refused : Nat
  slot : Option (List Byte)
  sent : List Byte
  deriving DecidableEq, Repr

/-! ## The state -/

/-- The whole state of the part, with the queue of waiting commands and the free value of the model. -/
structure State where
  uptime : Nat
  temps : PerTemp TempChannel
  queue : List TempId
  converter : Option Conversion
  powers : PerPower PowerChannel
  restFail : Nat
  inputs : PerInput InputLine
  candidate : Option Place
  dwell : Option Timer
  committed : Posture
  enterDwell : Nat
  relaxDwell : Nat
  hint : Option Hint
  effective : Posture
  profile : PerDomain (PerColumn Entry)
  skin : PerZone (PerColumn Int)
  column : Column
  zones : PerZone Zone
  thermal : PerDomain Nat
  accounts : PerDomain Account
  domains : PerDomain DomainRecord
  report : SupplyReport
  supplyCfg : SupplyConfig
  supply : Allocation
  watch : TripWatch
  caps : PerDomain Caps
  contributors : PerDomain Contributors
  grants : PerDomain Grant
  compliance : PerDomain Compliance
  lines : PerLine ThrottleLine
  faults : List FaultRecord
  severity : Severity
  mode : Mode
  notices : PerPort NoticePort
  links : PerPort Link
  adrsel : Bool
  /-- RST_N is low (R128, R167). -/
  inReset : Bool
  /-- DESIGN CHOICE (log 4; safe). The free value from which the open orders inside an event are drawn. -/
  schedule : Nat
  /-- The commands that wait, first in, first out (log 1). -/
  pending : List Instr
  deriving DecidableEq, Repr

/-- The ways the part can stop. The manual gives it none: every command has an effect, does not happen (log 3), or is
answered by a reply status (R169). No meaning can raise a fault (log 23; safe). -/
inductive Fault where
  deriving DecidableEq, Repr

/-- The ways a command can have no meaning. -/
inductive Refusal where
  /-- Raised by exec for a command whose meaning is not written; no arm of exec raises it (log 23; safe). -/
  | notModelled (mnemonic : String)
  deriving DecidableEq, Repr

/-! ## Reset values -/

/-- The reset record of a temperature channel (section 1.1, R1, R2). -/
def resetTemp (enabled : Bool) : TempChannel :=
  { cfg := { enabled := enabled, kind := .diode, interval := 100, offset := 0, holdCount := 2, failValue := 1050 }
    state := if enabled then .starting else .disabled
    value := none, badRun := 0, firstBad := none, lastGood := none
    timer := if enabled then some ⟨0, 100⟩ else none }

/-- The reset record of a power channel (section 1.6, R15). -/
def resetPower : PowerChannel :=
  { interval := 2, holdCount := 3, state := .starting, value := none, badRun := 0, timer := ⟨0, 2⟩ }

/-- The reset record of an input line whose pin is found at a level: UNDETERMINED, ACTIVE_HIGH, its debounce timer from
zero with the level present as its tentative level (R23). -/
def resetInput (debounce : Nat) (pinHigh : Bool) : InputLine :=
  { cfg := { polarity := .activeHigh, debounce := debounce, trigger := .both }
    pinHigh := pinHigh, state := .undetermined
    debouncing := some { timer := ⟨0, debounce⟩, tentative := pinHigh } }

/-- The reset skin limits of a zone, in column order (section 3.5, R49). -/
def resetSkin : PerColumn Int := ⟨430, 410, 480, 430, 400⟩

/-- The reset domain entries (section 3.3, R45). -/
def resetProfile : PerDomain (PerColumn Entry) :=
  { d0 := ⟨⟨8000, 8000, 0⟩, ⟨10000, 15000, 10000⟩, ⟨28000, 45000, 28000⟩, ⟨18000, 35000, 20000⟩, ⟨8000, 12000, 5000⟩⟩
    d1 := ⟨⟨5000, 5000, 0⟩, ⟨8000, 10000, 5000⟩, ⟨35000, 50000, 10000⟩, ⟨20000, 30000, 10000⟩, ⟨5000, 8000, 5000⟩⟩
    d2 := ⟨⟨10000, 10000, 0⟩, ⟨15000, 15000, 0⟩, ⟨45000, 45000, 0⟩, ⟨30000, 30000, 0⟩, ⟨15000, 15000, 0⟩⟩ }

/-- The reset record of a zone (section 4.1, R54, R55). -/
def resetZone (enabled : Bool) : Zone :=
  { cfg :=
      { enabled := enabled
        sources := if enabled then [⟨.t0, 256⟩] else []
        influence := ⟨enabled, enabled, false⟩
        alpha := 64, interval := 1000, hysteresis := 10, descentDwell := 3, tripMargin := 30 }
    ladder := [⟨30, 85⟩, ⟨15, 65⟩, ⟨0, 40⟩]
    state := if enabled then .starting else .off
    estimate := none, position := 0, held := 0, percent := 100, degraded := false, blind := false
    timer := if enabled then some ⟨0, 1000⟩ else none }

/-- The reset account of a domain whose SAFE entry is s / s / 0 (R76). -/
def resetAccount (s : Nat) : Account :=
  { s := s, b := s, w := 0, capacity := 0, credit := 0, state := .sustained, percent := 100
    sEff := s, bEff := s, threshold := 1, allowance := s }

/-- The reset domain record (sections 5.1, 6.4 and 7.3). -/
def resetDomain (priority floor lmin : Nat) : DomainRecord :=
  { recover := 25, arbitrated := true, priority := priority, floor := floor, lmin := lmin
    tolerance := 10, aboveN := 5, belowM := 10, settleTime := 100 }

/-- The reset line record (R128) of a line with this routing and floor source, its pin found at a level: OPEN_DRAIN and
ACTIVE_LOW, its comparison made at once (R137, R138). -/
def resetLine (routing : DomainSet) (floored : Bool) (pinHigh : Bool) : ThrottleLine :=
  { cfg := { routing := routing, output := .openDrain, polarity := .activeLow, window := 4 }
    manual := false
    view := { supplyTrip := false, zoneTrip := false, excess := false, floor := floored }
    drive := floored
    cause := if floored then .floor else .none
    pinOut := if floored then .low else .highImpedance
    pinHigh := pinHigh
    sensed := !pinHigh
    external := !floored && !pinHigh
    stuck := false
    window := if floored && pinHigh then some ⟨0, 4⟩ else none }

/-- The reset line records from the levels found at the pins; D1 has its floor applied, so THR1 is asserted (R128). -/
def resetLines (pins : PerLine Bool) : PerLine ThrottleLine :=
  { thr0 := resetLine ⟨true, false, false⟩ false pins.thr0
    thr1 := resetLine ⟨false, true, false⟩ true pins.thr1
    thr2 := resetLine ⟨false, false, true⟩ false pins.thr2
    thr3 := resetLine ⟨false, false, false⟩ false pins.thr3 }

/-- The reset input records from the levels found at the pins (section 2.1). -/
def resetInputs (pins : PerInput Bool) : PerInput InputLine :=
  { lid := resetInput 50 pins.lid
    acin := resetInput 20 pins.acin
    motion := resetInput 500 pins.motion
    contact := resetInput 200 pins.contact }

/-- The state right after reset. DESIGN CHOICE (log 6; unsafe): ADRSEL low, the four input pins low, the four throttle
pins high as their pull-ups set them; a RESET command carries its own levels. DESIGN CHOICE (log 17; unsafe): no
delivery has been judged, and the watch's last power is 0. -/
def State.reset : State :=
  { uptime := 0
    temps := ⟨resetTemp true, resetTemp false, resetTemp false, resetTemp false, resetTemp false, resetTemp false,
      resetTemp false, resetTemp false⟩
    queue := []
    converter := none
    powers := ⟨resetPower, resetPower, resetPower, resetPower, resetPower⟩
    restFail := 20000
    inputs := resetInputs ⟨false, false, false, false⟩
    candidate := none
    dwell := none
    committed := .unsettled
    enterDwell := 1500
    relaxDwell := 20000
    hint := none
    effective := .unsettled
    profile := resetProfile
    skin := ⟨resetSkin, resetSkin, resetSkin, resetSkin⟩
    column := .safe
    zones := ⟨resetZone true, resetZone false, resetZone false, resetZone false⟩
    thermal := ⟨100, 100, 100⟩
    accounts := ⟨resetAccount 8000, resetAccount 5000, resetAccount 10000⟩
    domains := ⟨resetDomain 0 8000 4000, resetDomain 1 5000 2000, resetDomain 2 0 0⟩
    report := { rating := 0, derate := 100, battery := none, received := false }
    supplyCfg := { margin := 3000, unknownRating := 45000, batteryDefault := 30000, tripPercent := 10, tripTime := 50 }
    supply :=
      { source := .battery, available := 30000, pool := 7000
        demand := ⟨8000, 5000, 10000⟩, share := ⟨some 7000, some 0, some 0⟩ }
    watch := { state := .clear, lastSys := 0 }
    caps := ⟨⟨none, none⟩, ⟨none, none⟩, ⟨none, none⟩⟩
    contributors :=
      ⟨⟨8000, some 7000, none, none, 100⟩, ⟨5000, some 0, none, none, 100⟩, ⟨10000, some 0, none, none, 100⟩⟩
    grants := ⟨⟨7000, .supply, false, 0, 0⟩, ⟨2000, .supply, true, 0, 0⟩, ⟨0, .supply, false, 0, 0⟩⟩
    compliance := ⟨⟨.normal, 0, 0, none⟩, ⟨.normal, 0, 0, none⟩, ⟨.normal, 0, 0, none⟩⟩
    lines := resetLines ⟨true, true, true, true⟩
    faults := []
    severity := .clear
    mode := .safe
    notices := ⟨⟨0, BitVec.allOnes 13, false⟩, ⟨0, BitVec.allOnes 13, false⟩⟩
    links := ⟨⟨[], 0, none, []⟩, ⟨[], 0, none, []⟩⟩
    adrsel := false
    inReset := false
    schedule := Config.schedule
    pending := [] }

end Sys2Proof.Machine
end

