-- ==== Sys2Proof/Machine/Flags.lean ====
section
/-!
DEFINITION. The values the blocks compute: pure functions of the records they are computed from. No state changes here.
-/

namespace Sys2Proof.Machine

open Sys2Proof

/-! ## Clamping and timers -/

/-- A value below the range takes the lowest value and one above it the highest (00_scope.md section 4.2). -/
def clampNat (lo hi x : Nat) : Nat := if x < lo then lo else if hi < x then hi else x

/-- The same for signed values. -/
def clampInt (lo hi x : Int) : Int := if x < lo then lo else if hi < x then hi else x

/-- A value that is not a multiple of a step is rounded down to one, and the result is clamped (R11, R70). -/
def clampStep (step lo hi x : Nat) : Nat := clampNat lo hi (x - x % step)

/-- A timer started from zero with a duration. -/
def Timer.start (duration : Nat) : Timer := ⟨0, duration⟩

/-- A timer after n ms. -/
def Timer.elapse (n : Nat) (t : Timer) : Timer := { t with elapsed := t.elapsed + n }

/-- A timer has reached its duration. -/
def Timer.due (t : Timer) : Bool := decide (t.duration ≤ t.elapsed)

/-- What is left of a timer's duration. -/
def Timer.remaining (t : Timer) : Nat := t.duration - t.elapsed

/-- Uptime n ms later (00_scope.md section 4.1). -/
def uptimeAfter (n uptime : Nat) : Nat := (uptime + n) % Config.uptimeModulus

/-! ## Channels (chapter 1) -/

/-- The time a conversion takes (R5). -/
def conversionTime : SensorKind → Nat
  | .diode => 3
  | .thermistor => 1

/-- The outcome of a conversion: a reading, or "out of range" with its indication (R5). -/
inductive ConversionOutcome where
  | reading (tenths : Int)
  | outOfRange (indication : BadIndication)
  deriving DecidableEq, Repr

/-- The range test, made before the offset is added; both ends are readings (R5). -/
def rangeTest : RawResult → ConversionOutcome
  | .openPair => .outOfRange .openPair
  | .shortPair => .outOfRange .shortPair
  | .degrees t =>
    if t > Config.temperatureMax then .outOfRange .high
    else if t < Config.temperatureMin then .outOfRange .low
    else .reading t

/-- The state after a bad outcome, from the state before, the new bad run and the hold count (R9, R16). -/
def stateAfterBad (old : ChannelState) (badRun holdCount : Nat) : ChannelState :=
  match old with
  | .failed => .failed
  | .starting => if badRun ≤ holdCount then .starting else .failed
  | .valid => if badRun ≤ holdCount then .holding else .failed
  | .holding => if badRun ≤ holdCount then .holding else .failed
  | .disabled => .disabled

/-- The consumer value of a temperature channel (R1). -/
def TempChannel.consumer (c : TempChannel) : Option Int :=
  match c.state with
  | .disabled => none
  | .starting => none
  | .valid => c.value
  | .holding => c.value
  | .failed => some c.cfg.failValue

/-- The REST consumer value, from PM3 and its fail value (R18). -/
def restValue (pm3 : PowerChannel) (failValue : Nat) : Nat :=
  match pm3.state with
  | .valid => pm3.value.getD failValue
  | .holding => pm3.value.getD failValue
  | .starting => failValue
  | .failed => failValue
  | .disabled => failValue

/-- The quality of a delivery (R17). -/
inductive Quality where
  | valid | held | substitute
  deriving DecidableEq, Repr

/-! ## Postures (chapter 2) -/

/-- The interpreted level, true is asserted, of a pin level under a polarity (R22, R130). -/
def interpret (polarity : Polarity) (pinHigh : Bool) : Bool :=
  match polarity with
  | .activeHigh => pinHigh
  | .activeLow => !pinHigh

/-- The debounced state that a level gives. -/
def LineState.ofLevel (asserted : Bool) : LineState := if asserted then .asserted else .deasserted

/-- Whether a trigger admits an edge to a level; true is RISE (R157). -/
def Trigger.admits (t : Trigger) (rise : Bool) : Bool :=
  match t with
  | .none => false
  | .rise => rise
  | .fall => !rise
  | .both => true

/-- The classification table over the four debounced states, none while a line is UNDETERMINED (R28). -/
def classify (lid acin motion contact : LineState) : Option Place :=
  match lid, acin, motion, contact with
  | .undetermined, _, _, _ => none
  | _, .undetermined, _, _ => none
  | _, _, .undetermined, _ => none
  | _, _, _, .undetermined => none
  | .asserted, _, .asserted, _ => some .bag
  | .asserted, .deasserted, .deasserted, _ => some .bag
  | .asserted, .asserted, .deasserted, _ => some .desk
  | .deasserted, _, _, .asserted => some .lap
  | .deasserted, _, .asserted, .deasserted => some .lap
  | .deasserted, _, .deasserted, .deasserted => some .desk

/-- Restrictiveness, DESK < LAP < BAG (R29). -/
def Place.rank : Place → Nat
  | .desk => 0
  | .lap => 1
  | .bag => 2

/-- A place as a posture. -/
def Place.posture : Place → Posture
  | .desk => .desk
  | .lap => .lap
  | .bag => .bag

/-- A posture as a place; UNSETTLED is not placed in the order (R29). -/
def Posture.place : Posture → Option Place
  | .unsettled => none
  | .desk => some .desk
  | .lap => some .lap
  | .bag => some .bag

/-- Whether a place is less restrictive than a posture; none is less restrictive than UNSETTLED (R34). -/
def Place.lessRestrictive (h : Place) (committed : Posture) : Bool :=
  match committed.place with
  | none => false
  | some c => decide (h.rank < c.rank)

/-- What a changed candidate does to the dwell timer (R29): none cancels it, some d starts it with duration d. -/
def dwellFor (candidate : Place) (committed : Posture) (enter relax : Nat) : Option Nat :=
  match committed.place with
  | none => some enter
  | some c => if c.rank < candidate.rank then some enter else if candidate.rank < c.rank then some relax else none

/-- The effective posture: the hint if one is held, otherwise the committed posture (R32). -/
def effectiveOf (hint : Option Hint) (committed : Posture) : Posture :=
  match hint with
  | some h => h.place.posture
  | none => committed

/-- The column in use (R40). -/
def columnOf (mode : Mode) (effective : Posture) : Column :=
  match mode with
  | .safe => .safe
  | .active =>
    match effective with
    | .unsettled => .unsettled
    | .desk => .desk
    | .lap => .lap
    | .bag => .bag

/-! ## Zones (chapter 4) -/

/-- The sum of wᵢ·Tᵢ over the sources, none if one offers no consumer value (R56, R57). -/
def weightedSum (consumer : TempId → Option Int) : List Source → Option Int
  | [] => some 0
  | src :: rest =>
    match consumer src.channel, weightedSum consumer rest with
    | some t, some sum => some (src.weight * t + sum)
    | _, _ => none

/-- The raw value from the weighted sum, rounded half up (R57). -/
def rawOf (sum : Int) : Int := (sum + 128) / 256

/-- The magnitude of the filtered step (R59, items 1 and 2). -/
def stepMagnitude (diff : Int) (alpha : Nat) : Nat :=
  let m := (diff.natAbs * alpha + 128) / 256
  if m = 0 ∧ diff ≠ 0 then 1 else m

/-- The estimate after a filtered step toward the raw value (R59). -/
def filtered (estimate raw : Int) (alpha : Nat) : Int :=
  let diff := raw - estimate
  if diff < 0 then estimate - stepMagnitude diff alpha else estimate + stepMagnitude diff alpha

/-- The trip point in a column (R61). -/
def tripPoint (skinLimit : Int) (margin : Nat) : Int := skinLimit + margin

/-- The enter threshold of a step in a column (section 4.6). -/
def enterThreshold (skinLimit : Int) (step : LadderStep) : Int := skinLimit - step.offset

/-- The highest k whose step's enter threshold the estimate reaches, or 0; steps are counted on from k (R64). -/
def topFrom (skinLimit estimate : Int) : Nat → List LadderStep → Nat
  | _, [] => 0
  | k, step :: rest =>
    let later := topFrom skinLimit estimate (k + 1) rest
    if later ≠ 0 then later else if enterThreshold skinLimit step ≤ estimate then k else 0

/-- top of R64: the highest step of the ladder that the estimate has entered, 0 for none. -/
def ladderTop (skinLimit estimate : Int) (ladder : List LadderStep) : Nat := topFrom skinLimit estimate 1 ladder

/-- The step of a position, none at position 0. -/
def stepAt (ladder : List LadderStep) : Nat → Option LadderStep
  | 0 => none
  | k + 1 => ladder[k]?

/-- The percent of a position, 100 at position 0 (R65). -/
def percentAt (ladder : List LadderStep) (position : Nat) : Nat :=
  match stepAt ladder position with
  | some step => step.percent
  | none => 100

/-- Whether a zone at a position may descend: its estimate lies below the position's threshold by the hysteresis and it
has been held for the descent dwell (R64). -/
def mayDescend (skinLimit estimate : Int) (z : Zone) : Bool :=
  match stepAt z.ladder z.position with
  | some step =>
    decide (estimate < enterThreshold skinLimit step - z.cfg.hysteresis) && decide (z.cfg.descentDwell ≤ z.held)
  | none => false

/-- Whether a zone counts toward thermal percent (R54). -/
def Zone.counts (z : Zone) : Bool :=
  match z.state with
  | .active => true
  | .tripped => true
  | .off => false
  | .starting => false

/-- A zone's percent toward a domain: 100 where it does not count or does not influence the domain (R68). -/
def Zone.percentFor (d : DomainId) (z : Zone) : Nat :=
  if z.counts && z.cfg.influence.get d then z.percent else 100

/-- The thermal percent of a domain: the least over its zones, or 100 if there is none (R68). -/
def thermalPercent (zones : PerZone Zone) (d : DomainId) : Nat :=
  min (min (min (min 100 (zones.z0.percentFor d)) (zones.z1.percentFor d)) (zones.z2.percentFor d))
    (zones.z3.percentFor d)

/-- A zone is degraded while enabled with at least one FAILED source (R60). -/
def degradedBy (cfg : ZoneConfig) (state : TempId → ChannelState) : Bool :=
  cfg.enabled && cfg.sources.any fun src => state src.channel == .failed

/-- A zone is blind while enabled with every one of its sources FAILED (R63). -/
def blindBy (cfg : ZoneConfig) (state : TempId → ChannelState) : Bool :=
  cfg.enabled && !cfg.sources.isEmpty && cfg.sources.all fun src => state src.channel == .failed

/-! ## Accounts (chapter 5) -/

/-- The capacity of an entry, in µJ (R77). -/
def Entry.capacity (e : Entry) : Nat := (e.b - e.s) * e.w

/-- A limit scaled by a thermal percent, rounded down (R78). -/
def scaled (limit percent : Nat) : Nat := limit * percent / 100

/-- The recover threshold of a capacity, at least 1 (R76, R77). -/
def recoverThreshold (capacity recover : Nat) : Nat := max 1 (capacity * recover / 100)

/-- The credit after one delivery of power P over dt ms (R79). -/
def creditAfter (credit capacity sEff power dt : Nat) : Nat :=
  (clampInt 0 capacity (credit + (sEff - power : Int) * dt)).toNat

/-- The state rule (R81). -/
def stateRule (old : AccountState) (capacity credit threshold : Nat) : AccountState :=
  if capacity = 0 then .sustained
  else
    match old with
    | .burst => if credit = 0 then .sustained else .burst
    | .sustained => if threshold ≤ credit then .burst else .sustained

/-- The allowance that an account's state selects (R82). -/
def Account.selected (a : Account) : Nat :=
  match a.state with
  | .burst => a.bEff
  | .sustained => a.sEff

/-- The account's state rule applied to its credit as it stands (R81). -/
def Account.ruled (a : Account) : Account := { a with state := stateRule a.state a.capacity a.credit a.threshold }

/-! ## Supply (chapter 6) -/

/-- The source while ACIN is in a debounced state (R96). -/
def sourceOf (acin : LineState) : PowerSource :=
  match acin with
  | .asserted => .adapter
  | .deasserted => .battery
  | .undetermined => .battery

/-- The available power (R97). -/
def availablePower (source : PowerSource) (r : SupplyReport) (c : SupplyConfig) : Nat :=
  match source with
  | .adapter => (if r.rating = 0 then c.unknownRating else r.rating) * r.derate / 100
  | .battery => if r.received then r.battery.getD c.batteryDefault else c.batteryDefault

/-- The pool, 0 where the difference is negative (R98). -/
def poolOf (available rest margin : Nat) : Nat := available - rest - margin

/-- The smaller of a power and a cap that may be absent. -/
def capped (power : Nat) (cap : Option Nat) : Nat :=
  match cap with
  | some c => min power c
  | none => power

/-- The demand of a domain (R100). -/
def demandOf (allowance : Nat) (caps : Caps) : Nat := capped (capped allowance caps.capP) caps.capS

/-- A domain put into the order of service: before the first domain of a larger priority (R99). -/
def insertByPriority (priority : DomainId → Nat) (d : DomainId) : List DomainId → List DomainId
  | [] => [d]
  | e :: rest => if priority d < priority e then d :: e :: rest else e :: insertByPriority priority d rest

/-- The arbitrated domains in the order of service; shared priorities in domain-number order (R99, R101). -/
def serviceOrder (records : PerDomain DomainRecord) : List DomainId :=
  let priority := fun d => (records.get d).priority
  (DomainId.all.filter fun d => (records.get d).arbitrated).foldl (fun order d => insertByPriority priority d order) []

/-- What is left of the pool, and what each domain has been given of it. -/
structure Serving where
  remaining : Nat
  given : PerDomain Nat
  deriving DecidableEq, Repr

/-- One domain given at most an amount of what remains. -/
def Serving.give (v : Serving) (d : DomainId) (amount : Nat) : Serving :=
  let g := min amount v.remaining
  { remaining := v.remaining - g, given := v.given.set d (v.given.get d + g) }

/-- The floor pass: each domain in turn is given the smallest of its floor, its demand and what remains (R101). -/
def floorPass (floor demand : PerDomain Nat) : List DomainId → Serving → Serving
  | [], v => v
  | d :: rest, v => floorPass floor demand rest (v.give d (min (floor.get d) (demand.get d)))

/-- The extra pass: each domain in turn is given its demand less what it has been given, as far as it remains (R101). -/
def extraPass (demand : PerDomain Nat) : List DomainId → Serving → Serving
  | [], v => v
  | d :: rest, v => extraPass demand rest (v.give d (demand.get d - v.given.get d))

/-- The shares of the pool; absent for a domain that is not arbitrated (R101). -/
def sharesOf (pool : Nat) (records : PerDomain DomainRecord) (demand : PerDomain Nat) : PerDomain (Option Nat) :=
  let order := serviceOrder records
  let served := extraPass demand order
    (floorPass (records.map (·.floor)) demand order { remaining := pool, given := ⟨0, 0, 0⟩ })
  .ofFn fun d => if (records.get d).arbitrated then some (served.given.get d) else none

/-- The trip threshold at a PM4 delivery (R105). -/
def tripThreshold (available tripPercent : Nat) : Nat := available * (100 + tripPercent) / 100

/-! ## Grants and compliance (chapter 7) -/

/-- The contributor kept so far and the next one in tie order, which wins only if it is smaller (R116). -/
def smaller (best : Owner × Nat) (owner : Owner) (value : Option Nat) : Owner × Nat :=
  match value with
  | some v => if v < best.2 then (owner, v) else best
  | none => best

/-- The owner and m: the smallest contributor, the first in the order ALLOWANCE, SUPPLY, CAP_P, CAP_S where several tie;
an ALLOWANCE owner is THERMAL below 100 percent and PROFILE at 100 (R116). -/
def Contributors.least (c : Contributors) : Owner × Nat :=
  let allowance := (if c.percent < 100 then Owner.thermal else Owner.profile, c.allowance)
  smaller (smaller (smaller allowance .supply c.share) .capP c.capP) .capS c.capS

/-- What a resolution finds (R116). -/
structure Resolution where
  limit : Nat
  owner : Owner
  floorApplied : Bool
  deriving DecidableEq, Repr

/-- The limit, owner and floor applied of a domain from its contributors and Lmin (R116). -/
def resolution (c : Contributors) (lmin : Nat) : Resolution :=
  { limit := max lmin c.least.2, owner := c.least.1, floorApplied := decide (c.least.2 < lmin) }

/-- The compliance threshold of a limit (R121). -/
def complianceThreshold (limit tolerance : Nat) : Nat := limit * (100 + tolerance) / 100

/-! ## Throttle lines (chapter 8) -/

/-- Two sets of domains share a member. -/
def setsMeet (a b : DomainSet) : Bool := (a.d0 && b.d0) || (a.d1 && b.d1) || (a.d2 && b.d2)

/-- A protective source is active. -/
def SourceView.any (v : SourceView) : Bool := v.supplyTrip || v.zoneTrip || v.excess || v.floor

/-- The drive of a line (R132). -/
def driveOf (v : SourceView) (manual : Bool) : Bool := v.any || manual

/-- The cause of a line (R132). -/
def causeOf (v : SourceView) (manual : Bool) : Cause :=
  if v.supplyTrip then .supplyTrip
  else if v.zoneTrip then .zoneTrip
  else if v.excess then .excess
  else if v.floor then .floor
  else if manual then .manual
  else .none

/-- What the part puts on the pin of a line (R129). -/
def pinOutOf (output : OutputType) (polarity : Polarity) (drive : Bool) : PinOut :=
  match output, polarity, drive with
  | .openDrain, _, true => .low
  | .openDrain, _, false => .highImpedance
  | .pushPull, .activeLow, true => .low
  | .pushPull, .activeLow, false => .high
  | .pushPull, .activeHigh, true => .high
  | .pushPull, .activeHigh, false => .low

/-- The readback comparison is a mismatch (R137). -/
def mismatch (output : OutputType) (drive sensed : Bool) : Bool :=
  match output with
  | .openDrain => drive && !sensed
  | .pushPull => drive != sensed

/-- External assertion (R137). -/
def externalOf (output : OutputType) (drive sensed : Bool) : Bool :=
  match output with
  | .openDrain => !drive && sensed
  | .pushPull => false

/-! ## Faults and notices (chapters 9 and 10) -/

/-- The severity of a fault kind (R142). -/
def FaultKind.severity : FaultKind → Severity
  | .tchFailed => .warning
  | .pchFailed => .warning
  | .convOverrun => .warning
  | .zoneTrip => .warning
  | .zoneBlind => .fatal
  | .excess => .warning
  | .lineStuck => .fatal
  | .supplyTrip => .fatal

/-- Whether a fault kind is a condition; CONV_OVERRUN is an event (R142). -/
def FaultKind.isCondition : FaultKind → Bool
  | .convOverrun => false
  | .tchFailed => true
  | .pchFailed => true
  | .zoneTrip => true
  | .zoneBlind => true
  | .excess => true
  | .lineStuck => true
  | .supplyTrip => true

/-- The greatest severity among the records of a log (R148). -/
def summaryOf (log : List FaultRecord) : Severity :=
  if log.any (fun r => r.severity == .fatal) then .fatal else if log.isEmpty then .clear else .warning

/-- A record is the one of a kind and subject. -/
def FaultRecord.isOf (r : FaultRecord) (kind : FaultKind) (subject : Nat) : Bool :=
  r.kind == kind && r.subject == subject

/-- The position of a notice kind in a set (section 11.7). -/
def NoticeKind.position : NoticeKind → Nat
  | .grant => 0
  | .posture => 1
  | .hintDropped => 2
  | .ladder => 3
  | .trip => 4
  | .throttle => 5
  | .fault => 6
  | .mode => 7
  | .burst => 8
  | .inLid => 9
  | .inAcin => 10
  | .inMotion => 11
  | .inContact => 12

/-- A notice kind as a set of its own. -/
def NoticeKind.bit (k : NoticeKind) : NoticeSet := BitVec.twoPow 13 k.position

/-- A kind is in a set. -/
def NoticeSet.has (set : NoticeSet) (k : NoticeKind) : Bool := set.getLsbD k.position

/-- The IN_ kind of an input line (section 10.1). -/
def edgeNotice : InputId → NoticeKind
  | .lid => .inLid
  | .acin => .inAcin
  | .motion => .inMotion
  | .contact => .inContact

/-- A port's attention line is asserted exactly while it has a pending kind that it does not mask (R159). -/
def attentionOf (pending mask : NoticeSet) : Bool := pending &&& ~~~mask != 0

end Sys2Proof.Machine
end

