-- ==== Sys2Proof/Machine/Ops.lean ====
section
/-!
DEFINITION. The operations that every block shares: the passing of time, the free order of an event's consequences, the
notice sets, the fault log, and the placing of replies. The part has no exception to take (log 23).
-/

namespace Sys2Proof.Machine

open Sys2Proof

/-! ## Time -/

/-- n ms pass: uptime and every running timer go on; nothing expires by itself (log 2, log 3). -/
def elapse (n : Nat) (s : State) : State :=
  { s with
    uptime := uptimeAfter n s.uptime
    temps := s.temps.map fun c => { c with timer := c.timer.map (Timer.elapse n) }
    converter := s.converter.map fun j => { j with timer := j.timer.elapse n }
    powers := s.powers.map fun c => { c with timer := c.timer.elapse n }
    inputs := s.inputs.map fun l =>
      { l with debouncing := l.debouncing.map fun d => { d with timer := d.timer.elapse n } }
    dwell := s.dwell.map (Timer.elapse n)
    zones := s.zones.map fun z => { z with timer := z.timer.map (Timer.elapse n) }
    compliance := s.compliance.map fun c => { c with settle := c.settle.map (Timer.elapse n) }
    watch :=
      match s.watch.state with
      | .timing t => { s.watch with state := .timing (t.elapse n) }
      | .clear => s.watch
      | .tripped => s.watch
    lines := s.lines.map fun l => { l with window := l.window.map (Timer.elapse n) } }

/-- An expiry is the moment at which its timer reaches its duration: what is left of the duration passes first. DESIGN
CHOICE (log 3; safe). -/
def await (t : Timer) (s : State) : State := if t.due then s else elapse t.remaining s

/-! ## Reset and addresses (R128, R167) -/

/-- What an event does outside a reset; while RST_N is low no block holds anything that it could reach (R128, R167). -/
def outsideReset (f : State → State) (s : State) : Host.Outcome State Fault Refusal :=
  .next (if s.inReset then s else f s)

/-- The address that a port answers to; Port P's follows the ADRSEL level sampled at the end of reset (R167). -/
def portAddress (port : Port) (s : State) : BitVec 7 :=
  match port with
  | .platform => if s.adrsel then 0x3B else 0x3A
  | .system => 0x4C

/-- The part acknowledges a call of the address of its port, and none while RST_N is low (R167). -/
def State.acknowledges (s : State) (call : Call) : Bool := !s.inReset && call.address == portAddress call.port s

/-- What a transaction does at the port that acknowledges it; a transaction addressed elsewhere is ignored (R167). -/
def atPort (call : Call) (f : Port → State → State) (s : State) : Host.Outcome State Fault Refusal :=
  .next (if s.acknowledges call then f call.port s else s)

/-! ## The free order of an event's consequences -/

/-- At most `fuel` of the given consequences, each time one of those that are left, drawn from the free value. -/
def drawOrder : Nat → List (State → State) → State → State
  | 0, _, s => s
  | _ + 1, [], s => s
  | fuel + 1, f :: fs, s =>
    let todo := f :: fs
    let k := s.schedule % todo.length
    drawOrder fuel (todo.eraseIdx k) (todo.getD k f { s with schedule := s.schedule / todo.length })

/-- All the given consequences, in an order that the manual leaves open ("either may be taken first"). DESIGN CHOICE
(log 4; unsafe): the order is drawn from the free value of the state, and what one consequence brings about follows it
before the next is taken. -/
def inAnyOrder (todo : List (State → State)) (s : State) : State := drawOrder todo.length todo s

/-! ## Notices (R158, R159) -/

/-- A notice port with a kind added to its pending set, and its attention line derived again. -/
def NoticePort.raise (k : NoticeKind) (n : NoticePort) : NoticePort :=
  { n with pending := n.pending ||| k.bit, attention := attentionOf (n.pending ||| k.bit) n.mask }

/-- Raising a kind adds it to both ports' pending sets, whatever they mask (R158). DEDUCED (log 20; safe): it is added
at once; inside an event nothing reads the sets. -/
def raise (k : NoticeKind) (s : State) : State := { s with notices := s.notices.map (NoticePort.raise k) }

/-! ## The fault log (R142 to R148) -/

/-- The record of a first occurrence (R144). -/
def newRecord (kind : FaultKind) (subject : Nat) (value : Option Int) (uptime : Nat) : FaultRecord :=
  { kind := kind, subject := subject, severity := kind.severity
    present := if kind.isCondition then some true else none
    count := 1, firstTime := uptime, lastTime := uptime, firstValue := value }

/-- A record after a recurrence (R145). -/
def FaultRecord.recur (uptime : Nat) (r : FaultRecord) : FaultRecord :=
  { r with
    count := min 255 (r.count + 1)
    lastTime := uptime
    present := if r.kind.isCondition then some true else r.present }

/-- The log holds a record of a kind and subject. -/
def logHolds (log : List FaultRecord) (kind : FaultKind) (subject : Nat) : Bool :=
  log.any fun r => r.isOf kind subject

/-- An occurrence reaches the log: a first one appends a record, raises FAULT and recomputes the summary (R144, R148);
a recurrence changes its record in place (R145). What a FATAL occurrence does to the mode is `occurFatal`. -/
def occur (kind : FaultKind) (subject : Nat) (value : Option Int) (s : State) : State :=
  if logHolds s.faults kind subject then
    { s with faults := s.faults.map fun r => if r.isOf kind subject then r.recur s.uptime else r }
  else
    let log := s.faults ++ [newRecord kind subject value s.uptime]
    raise .fault { s with faults := log, severity := summaryOf log }

/-- A condition's end reaches the log: the record's present flag becomes no, and nothing is raised (R146). -/
def endCondition (kind : FaultKind) (subject : Nat) (s : State) : State :=
  { s with faults := s.faults.map fun r => if r.isOf kind subject then { r with present := some false } else r }

/-! ## Replies (R169, R171, R172) -/

/-- The status of a reply (section 11.7). -/
inductive Status where
  | ok | clamped | badFrame | unknown | denied | state | invalid | none
  deriving DecidableEq, Repr

/-- The code of a status (section 11.7). -/
def Status.code : Status → Byte
  | .ok => 0
  | .clamped => 1
  | .badFrame => 2
  | .unknown => 3
  | .denied => 4
  | .state => 5
  | .invalid => 6
  | .none => 7

/-- A reply: its status, and the fields that follow it. -/
structure Reply where
  status : Status
  fields : List Byte
  deriving DecidableEq, Repr

/-- A reply that carries the status alone (R171). -/
def Reply.bare (status : Status) : Reply := ⟨status, []⟩

/-- OK, or CLAMPED where a value was adjusted, with the fields of the kind's OK reply (R171). DESIGN CHOICE (log 11;
unsafe): CLAMPED also where the adjusted request then changes no field, in the requests whose rules leave this open. -/
def Reply.taken (adjusted : Bool) (fields : List Byte) : Reply := ⟨if adjusted then .clamped else .ok, fields⟩

/-- The kind byte of a reply: the request's kind plus 0x80, or 0x80 where there is no kind to echo (R171). -/
def replyKind (kind : Byte) : Byte := if kind.toNat < 0x80 then kind + 0x80 else 0x80

/-- The frame of a reply (section 11.2, R171). -/
def replyFrame (kind : Byte) (r : Reply) : List Byte := frame kind (r.status.code :: r.fields)

/-- The end of a write transaction that brought a well-formed frame: the reply frame replaces the port's reply slot, the
receive buffer is emptied, and no byte was refused (R168, R172). -/
def place (port : Port) (bytes : List Byte) (s : State) : State :=
  { s with links := s.links.set port { s.links.get port with buffer := [], refused := 0, slot := some bytes } }

/-- The reply to a request of a kind is placed. -/
def answer (port : Port) (kind : Kind) (r : Reply) (s : State) : State :=
  place port (replyFrame (replyKind (kindCode kind)) r) s

/-- Whether the catalogue lists the port for a kind (check 3 of R169; section 11.6). -/
def portListed (kind : Kind) (port : Port) : Bool :=
  match port with
  | .platform => true
  | .system =>
    match kind with
    | .identify | .readStatus | .readGrants | .readDomain | .readZone | .readChannel | .readFaults | .readNotices
    | .clearNotices | .setNoticeMask | .setCap | .postureHint => true
    | .clearFaults | .setChannel | .setPowerChannel | .setInput | .setPostureTiming | .setZone | .setLadder
    | .setProfile | .setSkinLimits | .setDomain | .setRouting | .setSupplyConfig | .supplyReport | .forceLine
    | .activate | .deactivate => false

/-- The mode that the catalogue names for a kind and port, none for either mode (check 4 of R169; section 11.6). -/
def modeNamed (kind : Kind) (port : Port) : Option Mode :=
  match kind with
  | .setInput | .setZone | .setDomain | .setRouting | .setSupplyConfig => some .safe
  | .setCap | .postureHint =>
    match port with
    | .platform => none
    | .system => some .active
  | .identify | .readStatus | .readGrants | .readDomain | .readZone | .readChannel | .readFaults | .readNotices
  | .clearNotices | .setNoticeMask | .clearFaults | .setChannel | .setPowerChannel | .setPostureTiming | .setLadder
  | .setProfile | .setSkinLimits | .supplyReport | .forceLine | .activate | .deactivate => none

/-- Whether check 4 of R169 passes in a mode. -/
def modeAllows (kind : Kind) (port : Port) (mode : Mode) : Bool :=
  match modeNamed kind port with
  | some m => m == mode
  | none => true

/-! ## Write transactions (R168) -/

/-- Whether the part acknowledges the next data byte of a write: it does while it can store it, and it stores the first 63
(R168). -/
def Link.acknowledgesByte (v : Link) : Bool := decide (v.buffer.length < Config.frameBytesMax)

/-- A data byte arrives: the part acknowledges and stores it, or refuses it (R168). -/
def Link.receive (v : Link) (b : Byte) : Link :=
  if v.acknowledgesByte then { v with buffer := v.buffer ++ [b] } else { v with refused := v.refused + 1 }

/-- The data bytes of a write transaction arrive, from its acknowledged address on (R168). -/
def Link.receiveAll (v : Link) (bytes : List Byte) : Link :=
  bytes.foldl Link.receive { v with buffer := [], refused := 0 }

/-- What the part answers to data byte k of a write transaction, counted from 0, on the bus (R168). -/
def Link.byteAcknowledged (v : Link) (bytes : List Byte) (k : Nat) : Bool := (v.receiveAll (bytes.take k)).acknowledgesByte

/-- The frame test at the end of a write transaction: no byte was refused, and the receive buffer holds a well-formed frame
(R168; check 1 of R169). -/
def Link.holdsFrame (v : Link) : Bool := v.refused == 0 && frameWellFormed v.buffer

/-- A write transaction before its end: its data bytes are received at the port. -/
def receiveWrite (port : Port) (bytes : List Byte) (s : State) : State :=
  { s with links := s.links.set port ((s.links.get port).receiveAll bytes) }

/-- The reply to a BAD_FRAME (R171). DEDUCED (log 9; safe): its kind byte is 0x80 whatever was written. -/
def badFrameReply : List Byte := replyFrame 0x80 (.bare .badFrame)

/-- The end of a write transaction that failed the frame test: the write is not performed, its reply replaces the reply
slot, and the receive buffer is emptied (R168, R172). -/
def refuseWrite (port : Port) (s : State) : State :=
  { s with links := s.links.set port { s.links.get port with buffer := [], slot := some badFrameReply } }

/-- A write transaction of these data bytes: the bytes are received, the frame that the receive buffer then holds is tested,
and its kind byte and body are taken, in the event that empties the buffer (R168, R169). -/
def takeWrite (port : Port) (bytes : List Byte) (taken : Byte → List Byte → State → State) (s : State) : State :=
  let received := receiveWrite port bytes s
  let link := received.links.get port
  if link.holdsFrame then taken (link.buffer.headD 0) (frameBody link.buffer) s else refuseWrite port received

/-- A received request is taken: checks 3 to 5 of R169 in their order, then the owner, whose effect and reply are one event;
the reply, of whatever status, replaces the port's reply slot (R169, R172). `shape` is the body shape check (R170). -/
def checkRequest {α : Type} (kind : Kind) (port : Port) (shape : List Byte → Option α)
    (owner : α → State → State × Reply) (body : List Byte) (s : State) : State :=
  if !portListed kind port then answer port kind (.bare .denied) s
  else if !modeAllows kind port s.mode then answer port kind (.bare .state) s
  else
    match shape body with
    | none => answer port kind (.bare .invalid) s
    | some request =>
      let done := owner request s
      answer port kind done.2 done.1

/-- A request's write transaction: its frame is received and tested, and the request that it holds is taken (R168,
R169). -/
def takeRequest {α : Type} (kind : Kind) (port : Port) (shape : List Byte → Option α)
    (owner : α → State → State × Reply) (body : List Byte) (s : State) : State :=
  takeWrite port (frame (kindCode kind) body) (fun _ received => checkRequest kind port shape owner received) s

end Sys2Proof.Machine
end

