-- ==== Sys2Proof/Machine/Operands.lean ====
section
/-!
DEFINITION. The operand forms: numbers, codes and sets in frames (R175, section 11.8), and the body of each request with
its shape check (R170, section 11.6).
-/

namespace Sys2Proof.Machine

open Sys2Proof

/-! ## Writing numbers (R175) -/

/-- A number as that many bytes, the least significant first. -/
def leBytes : Nat → Nat → List Byte
  | 0, _ => []
  | k + 1, v => BitVec.ofNat 8 v :: leBytes k (v / 256)

/-- A signed number as that many bytes, in two's complement. -/
def leSigned (size : Nat) (v : Int) : List Byte := leBytes size (v % (256 ^ size : Nat)).toNat

/-- The absent marker of an unsigned field of that many bytes. -/
def absent (size : Nat) : List Byte := List.replicate size 0xFF

/-- The absent marker of a signed field of that many bytes. -/
def absentSigned (size : Nat) : List Byte := leBytes size (256 ^ size / 2)

/-- An unsigned value that may be absent. -/
def leOption (size : Nat) (v : Option Nat) : List Byte :=
  match v with
  | some n => leBytes size n
  | none => absent size

/-- A signed value that may be absent. -/
def leSignedOption (size : Nat) (v : Option Int) : List Byte :=
  match v with
  | some n => leSigned size n
  | none => absentSigned size

/-- A yes/no field. -/
def leBool (b : Bool) : List Byte := [if b then 1 else 0]

/-- A set of domains as a bit mask (R175). -/
def leDomains (set : DomainSet) : List Byte :=
  leBytes 1 ((if set.d0 then 1 else 0) + (if set.d1 then 2 else 0) + (if set.d2 then 4 else 0))

/-- A notice set as a bit mask of two bytes (R175). -/
def leNotices (set : NoticeSet) : List Byte := leBytes 2 set.toNat

/-! ## Codes (section 11.8) -/

def SensorKind.code : SensorKind → Nat
  | .diode => 0
  | .thermistor => 1

def ChannelState.code : ChannelState → Nat
  | .disabled => 0
  | .starting => 1
  | .valid => 2
  | .holding => 3
  | .failed => 4

def BadIndication.code : BadIndication → Nat
  | .openPair => 0
  | .shortPair => 1
  | .high => 2
  | .low => 3

def LineState.code : LineState → Nat
  | .undetermined => 0
  | .asserted => 1
  | .deasserted => 2

def Posture.code : Posture → Nat
  | .unsettled => 0
  | .desk => 1
  | .lap => 2
  | .bag => 3

def ZoneState.code : ZoneState → Nat
  | .off => 0
  | .starting => 1
  | .active => 2
  | .tripped => 3

def AccountState.code : AccountState → Nat
  | .sustained => 0
  | .burst => 1

def Owner.code : Owner → Nat
  | .thermal => 0
  | .profile => 1
  | .supply => 2
  | .capP => 3
  | .capS => 4

def ComplianceState.code : ComplianceState → Nat
  | .normal => 0
  | .excess => 1

def Cause.code : Cause → Nat
  | .none => 0
  | .supplyTrip => 1
  | .zoneTrip => 2
  | .excess => 3
  | .floor => 4
  | .manual => 5

def PowerSource.code : PowerSource → Nat
  | .battery => 0
  | .adapter => 1

def Severity.code : Severity → Nat
  | .clear => 0
  | .warning => 1
  | .fatal => 2

def Mode.code : Mode → Nat
  | .safe => 0
  | .active => 1

def FaultKind.code : FaultKind → Nat
  | .tchFailed => 1
  | .pchFailed => 2
  | .convOverrun => 3
  | .zoneTrip => 4
  | .zoneBlind => 5
  | .excess => 6
  | .lineStuck => 7
  | .supplyTrip => 8

/-! ## Reading numbers and codes (R170, R175) -/

/-- The byte at an offset of a body. -/
def u8 (b : List Byte) (i : Nat) : Nat := (b.getD i 0).toNat

/-- The 2-byte number at an offset. -/
def u16 (b : List Byte) (i : Nat) : Nat := u8 b i + 256 * u8 b (i + 1)

/-- The 4-byte number at an offset. -/
def u32 (b : List Byte) (i : Nat) : Nat := u16 b i + 65536 * u16 b (i + 2)

/-- The 2-byte signed number at an offset. -/
def s16 (b : List Byte) (i : Nat) : Int := if u16 b i < 32768 then u16 b i else (u16 b i : Int) - 65536

/-- A yes/no field, none for a byte other than 0 or 1. -/
def yesNo : Nat → Option Bool
  | 0 => some false
  | 1 => some true
  | _ => none

def sensorKindOf : Nat → Option SensorKind
  | 0 => some .diode
  | 1 => some .thermistor
  | _ => none

def inputPolarityOf : Nat → Option Polarity
  | 0 => some .activeHigh
  | 1 => some .activeLow
  | _ => none

def linePolarityOf : Nat → Option Polarity
  | 0 => some .activeLow
  | 1 => some .activeHigh
  | _ => none

def triggerOf : Nat → Option Trigger
  | 0 => some .none
  | 1 => some .rise
  | 2 => some .fall
  | 3 => some .both
  | _ => none

def outputTypeOf : Nat → Option OutputType
  | 0 => some .openDrain
  | 1 => some .pushPull
  | _ => none

/-- A domain set, none with a bit set at bits 3 to 7. -/
def domainSetOf (n : Nat) : Option DomainSet :=
  if n < 8 then some ⟨n % 2 == 1, n / 2 % 2 == 1, n / 4 % 2 == 1⟩ else none

/-- A notice set, none with a bit set at bits 13 to 15. -/
def noticeSetOf (n : Nat) : Option NoticeSet := if n < 8192 then some (BitVec.ofNat 13 n) else none

/-- What POSTURE_HINT names: UNSETTLED, a place, or "none". -/
inductive HintCode where
  | unsettled
  | place (h : Place)
  | noHint
  deriving DecidableEq, Repr

def hintCodeOf : Nat → Option HintCode
  | 0 => some .unsettled
  | 1 => some (.place .desk)
  | 2 => some (.place .lap)
  | 3 => some (.place .bag)
  | 255 => some .noHint
  | _ => none

/-! ## Bodies (section 11.6). A number is kept as it was sent: its range is the owner's check. -/

/-- The body of a kind with no fields. -/
def shapeEmpty (b : List Byte) : Option Unit := if b.length = 0 then some () else none

/-- The body of a read that names one instance or index. -/
def shapeIndex (b : List Byte) : Option Nat := if b.length = 1 then some (u8 b 0) else none

/-- The channel class of READ_CHANNEL. -/
inductive ChannelClass where
  | temperature | power
  deriving DecidableEq, Repr

def channelClassOf : Nat → Option ChannelClass
  | 0 => some .temperature
  | 1 => some .power
  | _ => none

def shapeReadChannel (b : List Byte) : Option (ChannelClass × Nat) :=
  if b.length = 2 then (channelClassOf (u8 b 0)).map fun c => (c, u8 b 1) else none

def shapeNotices (b : List Byte) : Option NoticeSet := if b.length = 2 then noticeSetOf (u16 b 0) else none

structure ChannelRequest where
  channel : Nat
  cfg : ChannelConfig
  deriving DecidableEq, Repr

/-- SET_CHANNEL: channel 1, enabled 1, kind 1, interval 2, offset 2s, hold count 1, fail value 2s. -/
def shapeSetChannel (b : List Byte) : Option ChannelRequest :=
  if b.length = 10 then
    match yesNo (u8 b 1), sensorKindOf (u8 b 2) with
    | some enabled, some kind =>
      some
        { channel := u8 b 0
          cfg :=
            { enabled := enabled, kind := kind, interval := u16 b 3, offset := s16 b 5, holdCount := u8 b 7
              failValue := s16 b 8 } }
    | _, _ => none
  else none

structure PowerChannelRequest where
  channel : Nat
  interval : Nat
  holdCount : Nat
  failValue : Nat
  deriving DecidableEq, Repr

/-- SET_POWER_CHANNEL: channel 1, interval 1, hold count 1, fail value 4. -/
def shapeSetPowerChannel (b : List Byte) : Option PowerChannelRequest :=
  if b.length = 7 then
    some { channel := u8 b 0, interval := u8 b 1, holdCount := u8 b 2, failValue := u32 b 3 }
  else none

structure InputRequest where
  line : Nat
  cfg : InputConfig
  deriving DecidableEq, Repr

/-- SET_INPUT: line 1, polarity 1, debounce 2, trigger 1. -/
def shapeSetInput (b : List Byte) : Option InputRequest :=
  if b.length = 5 then
    match inputPolarityOf (u8 b 1), triggerOf (u8 b 4) with
    | some polarity, some trigger =>
      some { line := u8 b 0, cfg := { polarity := polarity, debounce := u16 b 2, trigger := trigger } }
    | _, _ => none
  else none

structure PostureTimingRequest where
  enter : Nat
  relax : Nat
  deriving DecidableEq, Repr

/-- SET_POSTURE_TIMING: enter dwell 2, relax dwell 4. -/
def shapeSetPostureTiming (b : List Byte) : Option PostureTimingRequest :=
  if b.length = 6 then some { enter := u16 b 0, relax := u32 b 2 } else none

/-- A source slot as it was sent. -/
structure SourceSlot where
  channel : Nat
  weight : Nat
  deriving DecidableEq, Repr

structure ZoneRequest where
  zone : Nat
  enabled : Bool
  sourceCount : Nat
  slots : List SourceSlot
  influence : DomainSet
  alpha : Nat
  interval : Nat
  hysteresis : Nat
  descentDwell : Nat
  tripMargin : Nat
  deriving DecidableEq, Repr

/-- SET_ZONE: zone 1, enabled 1, source count 1, three source slots of {channel 1, weight 2}, influence set 1, α 2,
update interval 2, hysteresis 1, descent dwell 1, trip margin 1. Slots beyond the source count are dropped unchecked. -/
def shapeSetZone (b : List Byte) : Option ZoneRequest :=
  if b.length = 20 then
    match yesNo (u8 b 1), domainSetOf (u8 b 12) with
    | some enabled, some influence =>
      some
        { zone := u8 b 0
          enabled := enabled
          sourceCount := u8 b 2
          slots := [⟨u8 b 3, u16 b 4⟩, ⟨u8 b 6, u16 b 7⟩, ⟨u8 b 9, u16 b 10⟩].take (u8 b 2)
          influence := influence
          alpha := u16 b 13
          interval := u16 b 15
          hysteresis := u8 b 17
          descentDwell := u8 b 18
          tripMargin := u8 b 19 }
    | _, _ => none
  else none

structure LadderRequest where
  zone : Nat
  steps : List LadderStep
  deriving DecidableEq, Repr

/-- That many {offset 2, percent 1} steps from an offset of a body on. -/
def ladderSteps (b : List Byte) : Nat → Nat → List LadderStep
  | _, 0 => []
  | i, k + 1 => ⟨u16 b i, u8 b (i + 2)⟩ :: ladderSteps b (i + 3) k

/-- SET_LADDER: zone 1, step count 1, then the steps; a step count above 8 fails the check whatever L is (R170). -/
def shapeSetLadder (b : List Byte) : Option LadderRequest :=
  if 2 ≤ b.length ∧ u8 b 1 ≤ 8 ∧ b.length = 2 + 3 * u8 b 1 then
    some { zone := u8 b 0, steps := ladderSteps b 2 (u8 b 1) }
  else none

structure ProfileRequest where
  domain : Nat
  column : Nat
  entry : Entry
  deriving DecidableEq, Repr

/-- SET_PROFILE: domain 1, column 1, S 4, B 4, W 2. -/
def shapeSetProfile (b : List Byte) : Option ProfileRequest :=
  if b.length = 12 then
    some { domain := u8 b 0, column := u8 b 1, entry := ⟨u32 b 2, u32 b 6, u16 b 10⟩ }
  else none

structure SkinRequest where
  zone : Nat
  limits : PerColumn Int
  deriving DecidableEq, Repr

/-- SET_SKIN_LIMITS: zone 1, five limits 2s in column order. -/
def shapeSetSkinLimits (b : List Byte) : Option SkinRequest :=
  if b.length = 11 then
    some { zone := u8 b 0, limits := ⟨s16 b 1, s16 b 3, s16 b 5, s16 b 7, s16 b 9⟩ }
  else none

structure DomainRequest where
  domain : Nat
  record : DomainRecord
  deriving DecidableEq, Repr

/-- SET_DOMAIN: domain 1, recover percent 1, arbitrated 1, priority 1, floor 4, Lmin 4, tolerance 1, N 1, M 1, settle
time 2. -/
def shapeSetDomain (b : List Byte) : Option DomainRequest :=
  if b.length = 17 then
    match yesNo (u8 b 2) with
    | some arbitrated =>
      some
        { domain := u8 b 0
          record :=
            { recover := u8 b 1, arbitrated := arbitrated, priority := u8 b 3, floor := u32 b 4, lmin := u32 b 8
              tolerance := u8 b 12, aboveN := u8 b 13, belowM := u8 b 14, settleTime := u16 b 15 } }
    | none => none
  else none

structure RoutingRequest where
  line : Nat
  cfg : LineConfig
  deriving DecidableEq, Repr

/-- SET_ROUTING: line 1, routing set 1, output type 1, polarity 1, readback window 1. -/
def shapeSetRouting (b : List Byte) : Option RoutingRequest :=
  if b.length = 5 then
    match domainSetOf (u8 b 1), outputTypeOf (u8 b 2), linePolarityOf (u8 b 3) with
    | some routing, some output, some polarity =>
      some { line := u8 b 0, cfg := { routing := routing, output := output, polarity := polarity, window := u8 b 4 } }
    | _, _, _ => none
  else none

/-- SET_SUPPLY_CONFIG: margin 4, unknown-adapter rating 4, battery default 4, trip percent 1, trip time 2. -/
def shapeSetSupplyConfig (b : List Byte) : Option SupplyConfig :=
  if b.length = 15 then
    some
      { margin := u32 b 0, unknownRating := u32 b 4, batteryDefault := u32 b 8, tripPercent := u8 b 12
        tripTime := u16 b 13 }
  else none

structure ReportRequest where
  rating : Nat
  derate : Nat
  battery : Nat
  deriving DecidableEq, Repr

/-- SUPPLY_REPORT: adapter rating 4, derate 1, battery limit 4. -/
def shapeSupplyReport (b : List Byte) : Option ReportRequest :=
  if b.length = 9 then some { rating := u32 b 0, derate := u8 b 4, battery := u32 b 5 } else none

structure CapRequest where
  domain : Nat
  cap : Option Nat
  deriving DecidableEq, Repr

/-- SET_CAP: domain 1, cap 4, where 0xFFFFFFFF is "none". -/
def shapeSetCap (b : List Byte) : Option CapRequest :=
  if b.length = 5 then
    some { domain := u8 b 0, cap := if u32 b 1 = 0xFFFFFFFF then none else some (u32 b 1) }
  else none

/-- POSTURE_HINT: posture 1, where 0xFF is "none". -/
def shapePostureHint (b : List Byte) : Option HintCode := if b.length = 1 then hintCodeOf (u8 b 0) else none

structure ForceRequest where
  line : Nat
  asserted : Bool
  deriving DecidableEq, Repr

/-- FORCE_LINE: line 1, level 1; the level codes are those of a yes/no field. -/
def shapeForceLine (b : List Byte) : Option ForceRequest :=
  if b.length = 2 then (yesNo (u8 b 1)).map fun asserted => { line := u8 b 0, asserted := asserted } else none

end Sys2Proof.Machine
end

