-- ==== Sys2Proof/Machine/Resolver.lean ====
section
/-!
DEFINITION. The limit resolver (chapter 7): resolution, grant records, the settle window, compliance, and SET_CAP's and
SETTLE_TIMER_EXPIRY's share of it.
-/

namespace Sys2Proof.Machine

open Sys2Proof

/-! ## Resolution and grants (R116 to R118, R122) -/

/-- A limit decrease starts the settle timer from zero with the settle time in force and, in NORMAL, makes the above
count 0; a settle time of 0 starts no window (R122). DEDUCED (log 12; unsafe): it leaves a running timer as it is. -/
def startSettle (d : DomainId) (s : State) : State :=
  let time := (s.domains.get d).settleTime
  let c := s.compliance.get d
  if time = 0 then s
  else
    { s with
      compliance := s.compliance.set d
        { c with
          settle := some (Timer.start time)
          above := match c.state with
            | .normal => 0
            | .excess => c.above } }

/-- A resolution finds the values that the grant record already holds (R117). -/
def Grant.agrees (g : Grant) (r : Resolution) : Bool :=
  g.limit == r.limit && g.owner == r.owner && g.floorApplied == r.floorApplied

/-- A grant record changed by a resolution at an uptime (R117). -/
def Grant.changed (g : Grant) (r : Resolution) (uptime : Nat) : Grant :=
  { limit := r.limit, owner := r.owner, floorApplied := r.floorApplied
    changeCount := (g.changeCount + 1) % 65536, changedAt := uptime }

/-- One resolution of a domain: a record that differs is changed and GRANT raised, and a decrease of the limit starts the
settle window (R116, R117, R118, R122). -/
def resolve (d : DomainId) (s : State) : State :=
  let r := resolution (s.contributors.get d) (s.domains.get d).lmin
  let g := s.grants.get d
  if g.agrees r then s
  else
    let changed := raise .grant { s with grants := s.grants.set d (g.changed r s.uptime) }
    if r.limit < g.limit then startSettle d changed else changed

/-- The account's allowance is offered to the resolver (R82, R110). -/
def offerAllowanceToResolver (d : DomainId) (s : State) : State :=
  resolve d
    { s with
      contributors := s.contributors.set d
        { s.contributors.get d with allowance := (s.accounts.get d).allowance } }

/-- The domain's share, or its absence, is offered to the resolver (R102, R110). -/
def offerShareToResolver (d : DomainId) (s : State) : State :=
  resolve d
    { s with contributors := s.contributors.set d { s.contributors.get d with share := s.supply.share.get d } }

/-- The domain's thermal percent is offered to the resolver (R69, R110). -/
def offerPercentToResolver (d : DomainId) (s : State) : State :=
  resolve d { s with contributors := s.contributors.set d { s.contributors.get d with percent := s.thermal.get d } }

/-- A changed cap of the domain is offered to the resolver (R110, R112). -/
def offerCapsToResolver (d : DomainId) (s : State) : State :=
  resolve d
    { s with
      contributors := s.contributors.set d
        { s.contributors.get d with capP := (s.caps.get d).capP, capS := (s.caps.get d).capS } }

/-! ## Compliance (R121, R125, R126) -/

/-- The domain's compliance replaced. -/
def setCompliance (d : DomainId) (c : Compliance) (s : State) : State :=
  { s with compliance := s.compliance.set d c }

/-- A SUBSTITUTE delivery is not judged: EXCESS ends, and both counts become 0 (R125, R126). -/
def substituteCompliance (d : DomainId) (s : State) : State :=
  let c := s.compliance.get d
  let cleared := setCompliance d { c with state := .normal, above := 0, below := 0 } s
  match c.state with
  | .normal => cleared
  | .excess => endCondition .excess d.number cleared

/-- A VALID or HELD delivery of power P judged against the limit in force when it arrived (R121, R123, R126). -/
def judgeDelivery (d : DomainId) (power : Nat) (s : State) : State :=
  let c := s.compliance.get d
  let dom := s.domains.get d
  let limit := (s.grants.get d).limit
  match c.state with
  | .normal =>
    match c.settle with
    | some _ => s
    | none =>
      if complianceThreshold limit dom.tolerance < power then
        if dom.aboveN ≤ c.above + 1 then
          occur .excess d.number (some power)
            (setCompliance d { c with state := .excess, above := 0, below := 0 } s)
        else setCompliance d { c with above := c.above + 1 } s
      else setCompliance d { c with above := 0 } s
  | .excess =>
    if power ≤ limit then
      if dom.belowM ≤ c.below + 1 then
        endCondition .excess d.number (setCompliance d { c with state := .normal, above := 0, below := 0 } s)
      else setCompliance d { c with below := c.below + 1 } s
    else setCompliance d { c with below := 0 } s

/-- One delivery at a domain's compliance (R120). -/
def complianceDelivery (d : DomainId) (quality : Quality) (power : Nat) (s : State) : State :=
  match quality with
  | .valid => judgeDelivery d power s
  | .held => judgeDelivery d power s
  | .substitute => substituteCompliance d s

end Sys2Proof.Machine
end

