-- ==== Sys2Proof/Machine/Supply.lean ====
section
/-!
DEFINITION. The supply arbiter (chapter 6): recomputation of source, available power, pool, demands and shares, and the
supply trip watch as far as it changes no mode.
-/

namespace Sys2Proof.Machine

open Sys2Proof

/-- The allocation that the arbiter's inputs give as they stand (R96 to R101, R103). -/
def allocationOf (s : State) : Allocation :=
  let source := sourceOf s.inputs.acin.state
  let available := availablePower source s.report s.supplyCfg
  let pool := poolOf available (restValue s.powers.pm3 s.restFail) s.supplyCfg.margin
  let demand := PerDomain.ofFn fun d => demandOf (s.accounts.get d).allowance (s.caps.get d)
  { source := source, available := available, pool := pool, demand := demand
    share := sharesOf pool s.domains demand }

/-- A share that differs from the one before the recomputation is offered to the resolver (R102). -/
def offerShareIfChanged (before : PerDomain (Option Nat)) (d : DomainId) (s : State) : State :=
  if s.supply.share.get d = before.get d then s else offerShareToResolver d s

/-- One recomputation at the arbiter, with the changed shares offered to the resolver once each (R102, R103). DEDUCED
(log 16, log 18; safe): it reads its inputs where they stand; the offers concern different domains, so their order does
not show. -/
def recomputeShares (s : State) : State :=
  let next := { s with supply := allocationOf s }
  offerShareIfChanged s.supply.share .d2
    (offerShareIfChanged s.supply.share .d1 (offerShareIfChanged s.supply.share .d0 next))

/-- One PM4 delivery at the supply trip watch (R105, R107). -/
def watchDelivery (power : Nat) (s : State) : State :=
  let exceeds := tripThreshold s.supply.available s.supplyCfg.tripPercent < power
  match s.watch.state with
  | .clear =>
    { s with
      watch :=
        { state := if exceeds then .timing (Timer.start s.supplyCfg.tripTime) else .clear, lastSys := power } }
  | .timing t => { s with watch := { state := if exceeds then .timing t else .clear, lastSys := power } }
  | .tripped =>
    if power ≤ s.supply.available then
      endCondition .supplyTrip 0 { s with watch := { state := .clear, lastSys := power } }
    else { s with watch := { state := .tripped, lastSys := power } }

/-- PM4 entering FAILED cancels a running trip timer; a watch in TRIPPED stays so (R108). -/
def watchFailure (s : State) : State :=
  match s.watch.state with
  | .timing _ => { s with watch := { s.watch with state := .clear } }
  | .clear => s
  | .tripped => s

end Sys2Proof.Machine
end

