-- ==== Sys2Proof/Machine/Accounts.lean ====
section
/-!
DEFINITION. The headroom accounts (chapter 5): deliveries, column switches and re-selections, thermal changes, the recover
percent, and the offer of a changed allowance.
-/

namespace Sys2Proof.Machine

open Sys2Proof

/-- A changed allowance is offered once to the supply arbiter and once to the limit resolver; either may come first
(R82, R119). -/
def offerAllowance (d : DomainId) (s : State) : State :=
  inAnyOrder [recomputeShares, offerAllowanceToResolver d] s

/-- The end of an event at an account: the allowance is recomputed, BURST is raised if the state changed, and a changed
allowance is offered (R82, R83). -/
def settleAccount (d : DomainId) (next : Account) (s : State) : State :=
  let old := s.accounts.get d
  let account := { next with allowance := next.selected }
  let stored := { s with accounts := s.accounts.set d account }
  let raised := if account.state = old.state then stored else raise .burst stored
  if account.allowance = old.allowance then raised else offerAllowance d raised

/-- S_eff and B_eff recomputed from the kept S and B and the percent held (R78). -/
def Account.rescaled (a : Account) : Account :=
  { a with sEff := scaled a.s a.percent, bEff := scaled a.b a.percent }

/-- An account that has copied an entry: new capacity and threshold, credit cut, rescaled, state rule applied (R77, R84,
steps 1 to 4). -/
def Account.switched (a : Account) (e : Entry) (recover : Nat) : Account :=
  Account.ruled (Account.rescaled
    { a with
      s := e.s, b := e.b, w := e.w, capacity := e.capacity, threshold := recoverThreshold e.capacity recover
      credit := min a.credit e.capacity })

/-- A column switch or a re-selection is announced to an account (R84). -/
def accountSwitch (d : DomainId) (s : State) : State :=
  settleAccount d
    ((s.accounts.get d).switched ((s.profile.get d).get s.column) (s.domains.get d).recover) s

/-- One delivery at an account, whatever its quality (R79, R80, R81). -/
def accountDelivery (d : DomainId) (power dt : Nat) (s : State) : State :=
  let a := s.accounts.get d
  settleAccount d (Account.ruled { a with credit := creditAfter a.credit a.capacity a.sEff power dt }) s

/-- A change of the domain's thermal percent is offered to its account (R85). -/
def accountThermal (d : DomainId) (s : State) : State :=
  settleAccount d (Account.rescaled { s.accounts.get d with percent := s.thermal.get d }) s

/-- A changed recover percent at an account: new threshold, state rule applied (R88). -/
def accountRecover (d : DomainId) (s : State) : State :=
  let a := s.accounts.get d
  settleAccount d (Account.ruled { a with threshold := recoverThreshold a.capacity (s.domains.get d).recover }) s

end Sys2Proof.Machine
end

