-- ==== Sys2Proof/Machine/Zones.lean ====
section
/-!
DEFINITION. The zone estimator (chapter 4) as far as it changes no mode: trip check, ladder, thermal percent, column
switch, and one update.
-/

namespace Sys2Proof.Machine

open Sys2Proof

/-- The zone's record replaced. -/
def setZoneRecord (z : ZoneId) (v : Zone) (s : State) : State := { s with zones := s.zones.set z v }

/-- The skin limit of a zone in the column in use at this moment (R43). -/
def skinLimit (z : ZoneId) (s : State) : Int := (s.skin.get z).get s.column

/-! ## Thermal percent (R68, R69) -/

/-- A domain's changed thermal percent is offered to its account and to the limit resolver; either may come first
(R69, R119). -/
def offerThermal (d : DomainId) (s : State) : State :=
  inAnyOrder [accountThermal d, offerPercentToResolver d] s

/-- A domain's thermal percent is recomputed and a change offered; the same value offers nothing (R68, R69). -/
def recomputeThermalOf (d : DomainId) (s : State) : State :=
  let p := thermalPercent s.zones d
  if p = s.thermal.get d then s else offerThermal d { s with thermal := s.thermal.set d p }

/-- The thermal percent of every domain is recomputed, at the end of the zones' event (R68). -/
def recomputeThermal (s : State) : State :=
  inAnyOrder [recomputeThermalOf .d0, recomputeThermalOf .d1, recomputeThermalOf .d2] s

/-! ## Trip check and ladder -/

/-- The trip check of a zone with its present estimate and the skin limit of the column in use, in both directions: the
ZONE_TRIP report and TRIP go with a change (R61, R62). -/
def tripCheck (z : ZoneId) (s : State) : State :=
  let v := s.zones.get z
  match v.estimate with
  | none => s
  | some estimate =>
    let point := tripPoint (skinLimit z s) v.cfg.tripMargin
    match v.state with
    | .active =>
      if point ≤ estimate then
        raise .trip (occur .zoneTrip z.number (some estimate) (setZoneRecord z { v with state := .tripped } s))
      else s
    | .tripped =>
      if estimate < point - v.cfg.hysteresis then
        raise .trip (endCondition .zoneTrip z.number (setZoneRecord z { v with state := .active } s))
      else s
    | .off => s
    | .starting => s

/-- A zone moved to another position: held becomes 0, the percent follows, LADDER is raised (R64, R65). -/
def moveTo (z : ZoneId) (position : Nat) (s : State) : State :=
  let v := s.zones.get z
  raise .ladder
    (setZoneRecord z { v with position := position, held := 0, percent := percentAt v.ladder position } s)

/-- The upward part of the ladder, which a column switch makes too: a jump to top if it is above the position (R64,
R66). -/
def ladderUp (z : ZoneId) (s : State) : State :=
  let v := s.zones.get z
  match v.estimate with
  | none => s
  | some estimate =>
    let top := ladderTop (skinLimit z s) estimate v.ladder
    if v.position < top then moveTo z top s else s

/-- The ladder of one update: the jump up, else one step down where the zone may descend, else held counts on (R64). -/
def ladderUpdate (z : ZoneId) (s : State) : State :=
  let v := s.zones.get z
  match v.estimate with
  | none => s
  | some estimate =>
    if v.position < ladderTop (skinLimit z s) estimate v.ladder then ladderUp z s
    else if mayDescend (skinLimit z s) estimate v then moveTo z (v.position - 1) s
    else setZoneRecord z { v with held := min 15 (v.held + 1) } s

/-! ## Column switch and re-selection (R66) -/

/-- A column switch or re-selection is announced to a zone: an ACTIVE or TRIPPED zone makes the trip check and the jump
up at once; an OFF or STARTING zone makes no check (R66). -/
def zoneSwitch (z : ZoneId) (s : State) : State :=
  if (s.zones.get z).counts then ladderUp z (tripCheck z s) else s

/-- The reactions of all zones to one column switch, and then the thermal percents, once (R66, R68). Which zone reports
first is open (R144). -/
def zonesSwitch (s : State) : State :=
  recomputeThermal (inAnyOrder [zoneSwitch .z0, zoneSwitch .z1, zoneSwitch .z2, zoneSwitch .z3] s)

/-! ## One update (R56 to R65) -/

/-- The estimate of an update formed from its raw value: taken whole by a STARTING zone, which becomes ACTIVE, and by a
filtered step otherwise (R58, R59). -/
def Zone.estimated (v : Zone) (raw : Int) : Zone :=
  match v.state with
  | .starting => { v with estimate := some raw, state := .active }
  | .active => { v with estimate := some (filtered (v.estimate.getD raw) raw v.cfg.alpha) }
  | .tripped => { v with estimate := some (filtered (v.estimate.getD raw) raw v.cfg.alpha) }
  | .off => v

/-- One update of a zone from the weighted sum of its sources: raw value, estimate, trip check, ladder and percent, and
the thermal percents at its end (R56). The first update, of a STARTING zone, makes the jump only, and the held count stays
as it was (R58). -/
def updateZone (z : ZoneId) (sum : Int) (s : State) : State :=
  let v := s.zones.get z
  let checked := tripCheck z (setZoneRecord z (v.estimated (rawOf sum)) s)
  recomputeThermal (if v.state = .starting then ladderUp z checked else ladderUpdate z checked)

end Sys2Proof.Machine
end

