-- ==== Sys2Proof/Machine/Modes.lean ====
section
/-!
DEFINITION. What ties the blocks together: the column in use and its switch (chapter 3), the effective posture (chapter
2), leaving ACTIVE and the FATAL occurrences that force it (chapter 9).
-/

namespace Sys2Proof.Machine

open Sys2Proof

/-! ## Column in use (R40 to R42, R48) -/

/-- A column switch announced to every recipient; their reactions are not ordered among themselves (R42). -/
def announceSwitch (s : State) : State :=
  inAnyOrder [zonesSwitch, accountSwitch .d0, accountSwitch .d1, accountSwitch .d2, recomputeShares] s

/-- The column in use is derived again from the mode and the effective posture; a change is a column switch (R40, R41). -/
def deriveColumn (s : State) : State :=
  let column := columnOf s.mode s.effective
  if column = s.column then s else announceSwitch { s with column := column }

/-- A re-selection for a domain: announced to its account and to the arbiter (R48). -/
def reselectDomain (d : DomainId) (s : State) : State := inAnyOrder [accountSwitch d, recomputeShares] s

/-- A re-selection for a zone (R48, R51, R66, R68). -/
def reselectZone (z : ZoneId) (s : State) : State := recomputeThermal (zoneSwitch z s)

/-! ## Effective posture (R32) -/

/-- The effective posture is derived again from the slot and the committed posture; a change raises POSTURE and is
offered to profile selection (R32). -/
def deriveEffective (s : State) : State :=
  let effective := effectiveOf s.hint s.committed
  if effective = s.effective then s else deriveColumn (raise .posture { s with effective := effective })

/-- The slot is emptied by a drop, and HINT_DROPPED raised (section 2.6). The effective posture is derived by the event
that drops. -/
def dropHint (s : State) : State := raise .hintDropped { s with hint := none }

/-- A held hint is one from Port S. -/
def heldFromSystem (hint : Option Hint) : Bool :=
  match hint with
  | some h => h.origin == .system
  | none => false

/-! ## Leaving ACTIVE (R113, R152 to R154) -/

/-- CAP_S of a domain becomes absent; one that was present is offered as cleared to the resolver and the arbiter
(R113). -/
def clearCapS (d : DomainId) (s : State) : State :=
  let c := s.caps.get d
  match c.capS with
  | none => s
  | some _ =>
    inAnyOrder [offerCapsToResolver d, recomputeShares] { s with caps := s.caps.set d { c with capS := none } }

/-- A Port S hint is dropped as the mode leaves ACTIVE (R37). -/
def dropSystemHint (s : State) : State := if heldFromSystem s.hint then deriveEffective (dropHint s) else s

/-- The mode leaves ACTIVE: MODE, the column switch to SAFE, the caps of Port S cleared and its hint dropped, in any
order (R149, R154). -/
def leaveActive (s : State) : State :=
  inAnyOrder [deriveColumn, clearCapS .d0, clearCapS .d1, clearCapS .d2, dropSystemHint]
    (raise .mode { s with mode := .safe })

/-- A FATAL occurrence: it reaches the log, and in ACTIVE the mode becomes SAFE in the same event (R153). -/
def occurFatal (kind : FaultKind) (subject : Nat) (value : Option Int) (s : State) : State :=
  let logged := occur kind subject value s
  match logged.mode with
  | .safe => logged
  | .active => leaveActive logged

/-! ## Sources of zones (R60, R63) -/

/-- A zone's degraded flag and its ZONE_BLIND follow the states of its source channels at once (R60, R63). -/
def followSources (z : ZoneId) (s : State) : State :=
  let v := s.zones.get z
  let state := fun c => (s.temps.get c).state
  let blind := blindBy v.cfg state
  let stored := setZoneRecord z { v with degraded := degradedBy v.cfg state, blind := blind } s
  if blind = v.blind then stored
  else if blind then occurFatal .zoneBlind z.number none stored
  else endCondition .zoneBlind z.number stored

/-- Every zone follows its sources; which of several zones reports first is open (R144). -/
def followAllSources (s : State) : State :=
  inAnyOrder [followSources .z0, followSources .z1, followSources .z2, followSources .z3] s

end Sys2Proof.Machine
end

