-- ==== Sys2Proof/Machine/Lines.lean ====
section
/-!
DEFINITION. The throttle line driver (chapter 8): source view, drive and cause, the readback comparison, and the end of
an event, where the lines are derived once.
-/

namespace Sys2Proof.Machine

open Sys2Proof

/-- The line's record replaced. -/
def setLineRecord (l : LineId) (v : ThrottleLine) (s : State) : State := { s with lines := s.lines.set l v }

/-- A zone is TRIPPED and its influence shares a domain with a routing (R131). -/
def Zone.trips (routing : DomainSet) (z : Zone) : Bool := z.state == .tripped && setsMeet z.cfg.influence routing

/-- The protective sources active for a routing, from the blocks that own them as they stand (R131). -/
def viewOf (s : State) (routing : DomainSet) : SourceView :=
  let excess := fun d => routing.get d && (s.compliance.get d).state == .excess
  let floor := fun d => routing.get d && (s.grants.get d).floorApplied
  { supplyTrip := s.watch.state == .tripped
    zoneTrip := s.zones.z0.trips routing || s.zones.z1.trips routing || s.zones.z2.trips routing
      || s.zones.z3.trips routing
    excess := excess .d0 || excess .d1 || excess .d2
    floor := floor .d0 || floor .d1 || floor .d2 }

/-- The events that make a readback comparison, as R138 tells them apart. -/
inductive Comparison where
  /-- a change of drive, of output type or of polarity -/
  | driven
  /-- a change of sensed level -/
  | sensed
  deriving DecidableEq, Repr

/-- The window timer after a comparison that found a mismatch with LINE_STUCK not present (R138). -/
def windowAfterMismatch (event : Comparison) (window : Nat) (timer : Option Timer) : Option Timer :=
  match event, timer with
  | .driven, _ => some (Timer.start window)
  | .sensed, some t => some t
  | .sensed, none => some (Timer.start window)

/-- The readback comparison of a line, with external assertion, the window timer and the end of LINE_STUCK (R137, R138,
R139). -/
def compareLine (l : LineId) (event : Comparison) (s : State) : State :=
  let v := s.lines.get l
  let compared := { v with external := externalOf v.cfg.output v.drive v.sensed }
  if mismatch v.cfg.output v.drive v.sensed then
    if v.stuck then setLineRecord l compared s
    else setLineRecord l { compared with window := windowAfterMismatch event v.cfg.window v.window } s
  else if v.stuck then
    endCondition .lineStuck l.number (setLineRecord l { compared with stuck := false, window := none } s)
  else setLineRecord l { compared with window := none } s

/-- A line derived from the sources as they stand: view, drive, cause and pin (R129, R131, R132). -/
def ThrottleLine.derived (v : ThrottleLine) (view : SourceView) : ThrottleLine :=
  let drive := driveOf view v.manual
  { v with
    view := view, drive := drive, cause := causeOf view v.manual
    pinOut := pinOutOf v.cfg.output v.cfg.polarity drive }

/-- A line is derived at the end of an event; a change of drive, or a change of output type or polarity (`fresh`), makes
the comparison afresh (R132, R136, R137). -/
def deriveLine (fresh : Bool) (l : LineId) (s : State) : State :=
  let v := s.lines.get l
  let next := v.derived (viewOf s v.cfg.routing)
  let stored := setLineRecord l next s
  if next.drive != v.drive || fresh then compareLine l .driven stored else stored

/-- The drives of the four lines. -/
def drives (s : State) : PerLine Bool := s.lines.map (·.drive)

/-- The end of an event that may change a source, a manual level or a routing: every line is derived once, and THROTTLE
is raised once if a drive changed (R131 to R133). `fresh` names a line whose output type or polarity changed. -/
def endEventWith (fresh : Option LineId) (s : State) : State :=
  let derived :=
    deriveLine (fresh == some .thr3) .thr3 (deriveLine (fresh == some .thr2) .thr2
      (deriveLine (fresh == some .thr1) .thr1 (deriveLine (fresh == some .thr0) .thr0 s)))
  if drives derived = drives s then derived else raise .throttle derived

/-- The end of an event that changed no output type and no polarity. -/
def endEvent (s : State) : State := endEventWith none s

end Sys2Proof.Machine
end

