-- ==== Sys2Proof/Machine/DomainCommands.lean ====
section
/-!
DEFINITION. The commands on a domain (chapters 5 to 7): SETTLE_TIMER_EXPIRY, SET_DOMAIN and SET_CAP.
-/

namespace Sys2Proof.Machine

open Sys2Proof

/-! ## SETTLE_TIMER_EXPIRY (R122) -/

/-- SETTLE_TIMER_EXPIRY: the timer goes idle; with the timer idle no expiry happens (R122). -/
def execSettleTimerExpiry (d : DomainId) (s : State) : Host.Outcome State Fault Refusal :=
  outsideReset (fun s =>
    match (s.compliance.get d).settle with
    | none => s
    | some t =>
      let due := await t s
      setCompliance d { due.compliance.get d with settle := none } due) s

/-! ## SET_DOMAIN (R88, R99, R114, R115, R124) -/

/-- Lmin is no greater than the S of any of the five columns (R114, item 4). -/
def lminFits (lmin : Nat) (columns : PerColumn Entry) : Bool :=
  decide (lmin ≤ columns.safe.s) && decide (lmin ≤ columns.unsettled.s) && decide (lmin ≤ columns.desk.s)
    && decide (lmin ≤ columns.lap.s) && decide (lmin ≤ columns.bag.s)

/-- The validation of SET_DOMAIN for a domain that exists (R114). -/
def recordValid (r : DomainRecord) (columns : PerColumn Entry) : Bool :=
  decide (1 ≤ r.recover) && decide (r.recover ≤ 100) && decide (r.priority ≤ 2) && decide (r.floor ≤ Config.powerMax)
    && decide (r.lmin ≤ Config.powerMax) && lminFits r.lmin columns && decide (r.tolerance ≤ 50)
    && decide (1 ≤ r.aboveN) && decide (r.aboveN ≤ 64) && decide (1 ≤ r.belowM) && decide (r.belowM ≤ 64)

/-- The arbitration fields of two records agree (R99). -/
def DomainRecord.sameArbitration (a b : DomainRecord) : Bool :=
  a.arbitrated == b.arbitrated && a.priority == b.priority && a.floor == b.floor

/-- The tolerance and the counts of two records agree (R124). -/
def DomainRecord.sameJudging (a b : DomainRecord) : Bool :=
  a.tolerance == b.tolerance && a.aboveN == b.aboveN && a.belowM == b.belowM

/-- A changed tolerance, N or M makes both counts 0 and leaves the state (R124). -/
def zeroCounts (d : DomainId) (s : State) : State :=
  setCompliance d { s.compliance.get d with above := 0, below := 0 } s

/-- A step taken only where a condition holds. -/
def onlyIf (condition : Bool) (f : State → State) (s : State) : State := if condition then f s else s

/-- A taken SET_DOMAIN stores every field together and takes each effect that its changed fields call for (R88, R99,
R114, R115, R124); the order of the effects is open. -/
def configureDomain (d : DomainId) (r : DomainRecord) (s : State) : State :=
  let old := s.domains.get d
  if r = old then s
  else
    endEvent (inAnyOrder
      [onlyIf (r.recover != old.recover) (accountRecover d),
        onlyIf (!r.sameArbitration old) recomputeShares,
        onlyIf (r.lmin != old.lmin) (resolve d),
        onlyIf (!r.sameJudging old) (zeroCounts d)]
      { s with domains := s.domains.set d r })

/-- The owner of SET_DOMAIN: validation, then clamping of the settle time (R114; log 11 for an adjusted request
that changes no field). -/
def ownSetDomain (r : DomainRequest) (s : State) : State × Reply :=
  match DomainId.ofNumber r.domain with
  | none => (s, .bare .invalid)
  | some d =>
    if recordValid r.record (s.profile.get d) then
      let settle := clampNat 0 2000 r.record.settleTime
      (configureDomain d { r.record with settleTime := settle } s,
        .taken (settle != r.record.settleTime) (leBytes 2 settle))
    else (s, .bare .invalid)

/-- SET_DOMAIN (R114). -/
def execSetDomain (call : Call) (body : List Byte) (s : State) : Host.Outcome State Fault Refusal :=
  atPort call (fun port => takeRequest .setDomain port shapeSetDomain ownSetDomain body) s

/-! ## SET_CAP (R111, R112) -/

/-- The cap that a SET_CAP takes: at most the largest power, and on Port S at least the domain's floor (R111). -/
def capTaken (port : Port) (floor : Nat) (cap : Option Nat) : Option Nat :=
  cap.map fun power =>
    match port with
    | .platform => min power Config.powerMax
    | .system => max floor (min power Config.powerMax)

/-- The caps of a domain with the one of a port replaced (R112). -/
def Caps.place (c : Caps) (port : Port) (cap : Option Nat) : Caps :=
  match port with
  | .platform => { c with capP := cap }
  | .system => { c with capS := cap }

/-- A taken SET_CAP stores the cap; a change is offered once to the resolver and once to the arbiter, and either may come
first (R112). -/
def storeCap (d : DomainId) (port : Port) (cap : Option Nat) (s : State) : State :=
  let old := s.caps.get d
  if old.place port cap = old then s
  else
    endEvent (inAnyOrder [offerCapsToResolver d, recomputeShares]
      { s with caps := s.caps.set d (old.place port cap) })

/-- The owner of SET_CAP: validation, then clamping (R111). -/
def ownSetCap (port : Port) (r : CapRequest) (s : State) : State × Reply :=
  match DomainId.ofNumber r.domain with
  | none => (s, .bare .invalid)
  | some d =>
    let cap := capTaken port (s.domains.get d).floor r.cap
    (storeCap d port cap s, .taken (cap != r.cap) (leOption 4 cap))

/-- SET_CAP (R111, R112). -/
def execSetCap (call : Call) (body : List Byte) (s : State) : Host.Outcome State Fault Refusal :=
  atPort call (fun port => takeRequest .setCap port shapeSetCap (ownSetCap port) body) s

end Sys2Proof.Machine
end

