-- ==== Sys2Proof/Machine/LineCommands.lean ====
section
/-!
DEFINITION. The throttle line driver's commands (chapter 8): SENSED_LEVEL_CHANGE, READBACK_WINDOW_EXPIRY, FORCE_LINE and
SET_ROUTING.
-/

namespace Sys2Proof.Machine

open Sys2Proof

/-- SENSED_LEVEL_CHANGE: the pin of a line takes a level; one it already has is no change (R130, R137, R138). DEDUCED
(log 14; unsafe): the level of a throttle pin comes by this command only. -/
def execSensedLevelChange (l : LineId) (high : Bool) (s : State) : Host.Outcome State Fault Refusal :=
  outsideReset (fun s =>
    let v := s.lines.get l
    if v.pinHigh = high then s
    else
      compareLine l .sensed
        (setLineRecord l { v with pinHigh := high, sensed := interpret v.cfg.polarity high } s)) s

/-- What an expiry of a line's window timer does: the FATAL LINE_STUCK becomes present and the timer goes idle (R139). -/
def lineSticks (l : LineId) (s : State) : State :=
  endEvent (occurFatal .lineStuck l.number none
    (setLineRecord l { s.lines.get l with stuck := true, window := none } s))

/-- READBACK_WINDOW_EXPIRY; with the timer idle no expiry happens (R139). -/
def execReadbackWindowExpiry (l : LineId) (s : State) : Host.Outcome State Fault Refusal :=
  outsideReset (fun s =>
    match (s.lines.get l).window with
    | none => s
    | some t => lineSticks l (await t s)) s

/-- The owner of FORCE_LINE: the manual level is stored and the lines are derived; the level already held changes
nothing (R134). -/
def ownForceLine (r : ForceRequest) (s : State) : State × Reply :=
  match LineId.ofNumber r.line with
  | none => (s, .bare .invalid)
  | some l =>
    let v := s.lines.get l
    (if v.manual = r.asserted then s else endEvent (setLineRecord l { v with manual := r.asserted } s), .bare .ok)

/-- FORCE_LINE (R134). -/
def execForceLine (call : Call) (body : List Byte) (s : State) : Host.Outcome State Fault Refusal :=
  atPort call (fun port => takeRequest .forceLine port shapeForceLine ownForceLine body) s

/-- A taken SET_ROUTING stores all four fields; a changed polarity inverts the sensed level; a changed output type or
polarity makes the comparison afresh, with the drive that the new routing gives (R136). A running window timer is left
where neither changed. -/
def configureLine (l : LineId) (cfg : LineConfig) (s : State) : State :=
  let v := s.lines.get l
  if cfg = v.cfg then s
  else
    let fresh := cfg.output ≠ v.cfg.output ∨ cfg.polarity ≠ v.cfg.polarity
    endEventWith (if fresh then some l else none)
      (setLineRecord l { v with cfg := cfg, sensed := interpret cfg.polarity v.pinHigh } s)

/-- The validation of SET_ROUTING for a line that exists (R135). -/
def outputValid (cfg : LineConfig) : Bool := !(cfg.output == .openDrain && cfg.polarity == .activeHigh)

/-- The owner of SET_ROUTING: validation, then clamping of the readback window (R135; log 11 for an adjusted
request that changes no field). -/
def ownSetRouting (r : RoutingRequest) (s : State) : State × Reply :=
  match LineId.ofNumber r.line with
  | none => (s, .bare .invalid)
  | some l =>
    if outputValid r.cfg then
      let window := clampNat 1 50 r.cfg.window
      (configureLine l { r.cfg with window := window } s, .taken (window != r.cfg.window) (leBytes 1 window))
    else (s, .bare .invalid)

/-- SET_ROUTING (R135, R136). -/
def execSetRouting (call : Call) (body : List Byte) (s : State) : Host.Outcome State Fault Refusal :=
  atPort call (fun port => takeRequest .setRouting port shapeSetRouting ownSetRouting body) s

end Sys2Proof.Machine
end

