-- ==== Sys2Proof/Machine/Links.lean ====
section
/-!
DEFINITION. The link commands that reach no block (chapter 11), BAD_FRAME, UNKNOWN and REPLY_READ, and RESET.
-/

namespace Sys2Proof.Machine

open Sys2Proof

/-- BAD_FRAME: the bytes are received and tested; the write is not performed, and its reply replaces the reply slot (R168,
R172). DESIGN CHOICE (log 19; safe): bytes that pass the frame test make no BAD_FRAME, and it does not happen. -/
def execBadFrame (call : Call) (bytes : List Byte) (s : State) : Host.Outcome State Fault Refusal :=
  atPort call (fun port => takeWrite port bytes (fun _ _ s => s)) s

/-- UNKNOWN: a kind outside the catalogue has no effect but its reply (check 2 of R169, R171). DESIGN CHOICE (log 19;
safe): a kind of the catalogue makes no UNKNOWN, and it does not happen. -/
def execUnknown (call : Call) (kind : Byte) (body : List Byte) (s : State) : Host.Outcome State Fault Refusal :=
  atPort call (fun port => takeWrite port (frame kind body) (fun received _ s =>
    match kindOfCode received with
    | none => place port (replyFrame (replyKind received) (.bare .unknown)) s
    | some _ => s)) s

/-- The NONE frame (R172). -/
def noneFrame : List Byte := replyFrame 0x80 (.bare .none)

/-- What a read transaction sends for that many bytes clocked: the frame in order, and 0xFF after its check byte (R172). -/
def sentBytes (content : List Byte) (clocked : Nat) : List Byte :=
  content.take clocked ++ List.replicate (clocked - content.length) 0xFF

/-- The read takes the slot's content, or NONE if it is empty, and the slot becomes empty (R172). -/
def sendReply (clocked : Nat) (port : Port) (s : State) : State :=
  let link := s.links.get port
  { s with
    links := s.links.set port
      { link with slot := none, sent := sentBytes (link.slot.getD noneFrame) clocked } }

/-- REPLY_READ (R172). -/
def execReplyRead (call : Call) (clocked : Nat) (s : State) : Host.Outcome State Fault Refusal :=
  atPort call (sendReply clocked) s

/-- RESET: every block abandons its work and takes its reset state. While RST_N is low the part does nothing; at the end of
reset ADRSEL, the input pins and the throttle pins are taken as they are found (R7, R23, R128, R167). DESIGN CHOICE (log
5; safe): the free value and the waiting commands are not the part's, and stay. -/
def execReset (edge : ResetEdge) (pins : PerInput Bool) (lines : PerLine Bool) (s : State) :
    Host.Outcome State Fault Refusal :=
  match edge with
  | .low => .next { State.reset with inReset := true, schedule := s.schedule, pending := s.pending }
  | .ended adrsel =>
    .next
      { State.reset with
        inputs := resetInputs pins
        lines := resetLines lines
        adrsel := adrsel
        schedule := s.schedule
        pending := s.pending }

/-! ## The outputs -/

/-- What the part puts on a throttle pin: high impedance while RST_N is low (R128, R129). -/
def throttlePin (l : LineId) (s : State) : PinOut := if s.inReset then .highImpedance else (s.lines.get l).pinOut

/-- A port's attention output is pulled low, and released while RST_N is low (R159, 00_scope.md section 6). -/
def attentionPulled (p : Port) (s : State) : Bool := !s.inReset && (s.notices.get p).attention

end Sys2Proof.Machine
end

