-- ==== Sys2Proof/Machine/ModeCommands.lean ====
section
/-!
DEFINITION. The fault log and mode block's commands (chapter 9): CLEAR_FAULTS, ACTIVATE and DEACTIVATE.
-/

namespace Sys2Proof.Machine

open Sys2Proof

/-- The records that a clear leaves: those of conditions still present, in their order (R147). -/
def kept (log : List FaultRecord) : List FaultRecord := log.filter fun r => r.present == some true

/-- The owner of CLEAR_FAULTS: it removes every record that is not a present condition, recomputes the summary and
reports how many remain (R147, R148). -/
def ownClearFaults (_ : Unit) (s : State) : State × Reply :=
  let log := kept s.faults
  ({ s with faults := log, severity := summaryOf log }, ⟨.ok, leBytes 1 log.length⟩)

/-- CLEAR_FAULTS (R147). -/
def execClearFaults (call : Call) (body : List Byte) (s : State) : Host.Outcome State Fault Refusal :=
  atPort call (fun port => takeRequest .clearFaults port shapeEmpty ownClearFaults body) s

/-- Two arbitrated domains share a priority (R99, check 3 of R150). -/
def sharedPriority (records : PerDomain DomainRecord) : Bool :=
  let same := fun a b : DomainRecord => a.arbitrated && b.arbitrated && a.priority == b.priority
  same records.d0 records.d1 || same records.d0 records.d2 || same records.d1 records.d2

/-- A successful ACTIVATE makes the mode ACTIVE, raises MODE and switches the column in the same event (R151). -/
def becomeActive (s : State) : State := endEvent (deriveColumn (raise .mode { s with mode := .active }))

/-- The owner of ACTIVATE, with its three checks in their order and the check number in the reply (R150, R171). -/
def ownActivate (_ : Unit) (s : State) : State × Reply :=
  match s.mode with
  | .active => (s, ⟨.ok, leBytes 1 0⟩)
  | .safe =>
    if s.faults.any (fun r => r.severity == .fatal) then (s, ⟨.state, leBytes 1 1⟩)
    else if !s.report.received then (s, ⟨.state, leBytes 1 2⟩)
    else if sharedPriority s.domains then (s, ⟨.invalid, leBytes 1 3⟩)
    else (becomeActive s, ⟨.ok, leBytes 1 0⟩)

/-- ACTIVATE (R150, R151). -/
def execActivate (call : Call) (body : List Byte) (s : State) : Host.Outcome State Fault Refusal :=
  atPort call (fun port => takeRequest .activate port shapeEmpty ownActivate body) s

/-- The owner of DEACTIVATE: in ACTIVE the mode becomes SAFE with the effects of leaving ACTIVE (R152). -/
def ownDeactivate (_ : Unit) (s : State) : State × Reply :=
  match s.mode with
  | .active => (endEvent (leaveActive s), .bare .ok)
  | .safe => (s, .bare .ok)

/-- DEACTIVATE (R152). -/
def execDeactivate (call : Call) (body : List Byte) (s : State) : Host.Outcome State Fault Refusal :=
  atPort call (fun port => takeRequest .deactivate port shapeEmpty ownDeactivate body) s

end Sys2Proof.Machine
end

