-- ==== Sys2Proof/Machine/NoticeCommands.lean ====
section
/-!
DEFINITION. The notice unit's commands (chapter 10): READ_NOTICES, CLEAR_NOTICES and SET_NOTICE_MASK.
-/

namespace Sys2Proof.Machine

open Sys2Proof

/-- A port's notice sets replaced, with its attention line derived again (R159). -/
def setNotices (port : Port) (pending mask : NoticeSet) (s : State) : State :=
  { s with
    notices := s.notices.set port { pending := pending, mask := mask, attention := attentionOf pending mask } }

/-- The owner of READ_NOTICES: both sets of the port as they stand (R162). -/
def ownReadNotices (port : Port) (_ : Unit) (s : State) : State × Reply :=
  let n := s.notices.get port
  (s, ⟨.ok, leNotices n.pending ++ leNotices n.mask⟩)

/-- READ_NOTICES (R162). -/
def execReadNotices (call : Call) (body : List Byte) (s : State) : Host.Outcome State Fault Refusal :=
  atPort call (fun port => takeRequest .readNotices port shapeEmpty (ownReadNotices port) body) s

/-- The owner of CLEAR_NOTICES: the named kinds leave the port's pending set; the reply is the set before (R160). -/
def ownClearNotices (port : Port) (named : NoticeSet) (s : State) : State × Reply :=
  let n := s.notices.get port
  (setNotices port (n.pending &&& ~~~named) n.mask s, ⟨.ok, leNotices n.pending⟩)

/-- CLEAR_NOTICES (R160). -/
def execClearNotices (call : Call) (body : List Byte) (s : State) : Host.Outcome State Fault Refusal :=
  atPort call (fun port => takeRequest .clearNotices port shapeNotices (ownClearNotices port) body) s

/-- The owner of SET_NOTICE_MASK: the set carried becomes the port's mask set (R161). -/
def ownSetNoticeMask (port : Port) (mask : NoticeSet) (s : State) : State × Reply :=
  (setNotices port (s.notices.get port).pending mask s, ⟨.ok, leNotices mask⟩)

/-- SET_NOTICE_MASK (R161). -/
def execSetNoticeMask (call : Call) (body : List Byte) (s : State) : Host.Outcome State Fault Refusal :=
  atPort call (fun port => takeRequest .setNoticeMask port shapeNotices (ownSetNoticeMask port) body) s

end Sys2Proof.Machine
end

