-- ==== Sys2Proof/Machine/Posture.lean ====
section
/-!
DEFINITION. The posture classifier (chapter 2): debounce, classification, dwell, commit and hints, with its commands
INPUT_LEVEL_CHANGE, DEBOUNCE_EXPIRY, DWELL_EXPIRY, SET_INPUT, SET_POSTURE_TIMING and POSTURE_HINT.
-/

namespace Sys2Proof.Machine

open Sys2Proof

/-! ## Classification, dwell and commit (R25, R28 to R30, R36, R38) -/

/-- The candidate becomes the committed posture and the timer goes idle; a Port S hint that is now less restrictive is
dropped (R30, R38). The effective posture is derived by the event that commits. -/
def commit (candidate : Place) (s : State) : State :=
  let committed := { s with committed := candidate.posture, dwell := none }
  match s.hint with
  | some h =>
    if h.origin = .system ∧ h.place.rank < candidate.rank then dropHint committed else committed
  | none => committed

/-- A changed candidate sets the dwell timer; a duration of 0 expires at once, in the same event (R29). -/
def setDwell (candidate : Place) (s : State) : State :=
  match dwellFor candidate s.committed s.enterDwell s.relaxDwell with
  | none => { s with dwell := none }
  | some 0 => commit candidate s
  | some (duration + 1) => { s with dwell := some (Timer.start (duration + 1)) }

/-- The candidate is evaluated from the four debounced states; an evaluation that leaves it as it was does nothing
further (R28). -/
def reclassify (s : State) : State :=
  let candidate := classify s.inputs.lid.state s.inputs.acin.state s.inputs.motion.state s.inputs.contact.state
  if candidate = s.candidate then s
  else
    match candidate with
    | none => { s with candidate := none }
    | some c => setDwell c { s with candidate := some c }

/-- Whether an edge of a line drops a held hint (R36). -/
def dropsHeldHint : InputId → Bool
  | .lid => true
  | .acin => true
  | .motion => false
  | .contact => false

/-- A change of a line's debounced state at the classifier, as one event: hint drop, classification, and then the
effective posture once (R25, R36). -/
def classifierEvent (l : InputId) (edge : Bool) (s : State) : State :=
  deriveEffective (reclassify (if edge && dropsHeldHint l && s.hint.isSome then dropHint s else s))

/-- A line's tentative level becomes its debounced state and is handed on (R23 to R25, R157): the notice unit gets an
edge, ACIN's state goes to the supply arbiter too (R96). DEDUCED (log 4; unsafe): classifier and arbiter in either order. -/
def takeLevel (l : InputId) (asserted : Bool) (s : State) : State :=
  let line := s.inputs.get l
  let edge := line.state != .undetermined
  let stored :=
    { s with
      inputs := s.inputs.set l { line with state := LineState.ofLevel asserted, debouncing := none } }
  let noticed := if edge && line.cfg.trigger.admits asserted then raise (edgeNotice l) stored else stored
  match l with
  | .acin => endEvent (inAnyOrder [classifierEvent .acin edge, recomputeShares] noticed)
  | .lid => endEvent (classifierEvent .lid edge noticed)
  | .motion => endEvent (classifierEvent .motion edge noticed)
  | .contact => endEvent (classifierEvent .contact edge noticed)

/-- A line's debounce timer is started from zero with a tentative level; a debounce of 0 takes the level at once (R23,
R24, R27). -/
def startDebounce (l : InputId) (asserted : Bool) (s : State) : State :=
  let line := s.inputs.get l
  if line.cfg.debounce = 0 then takeLevel l asserted s
  else
    { s with
      inputs := s.inputs.set l
        { line with debouncing := some { timer := Timer.start line.cfg.debounce, tentative := asserted } } }

/-- A level change of a line to the level it now has: it restarts the timer of an UNDETERMINED line; on a determined one
a change away starts the timer and a return cancels it (R23, R24). -/
def levelChange (l : InputId) (s : State) : State :=
  let line := s.inputs.get l
  let asserted := interpret line.cfg.polarity line.pinHigh
  if line.state = LineState.ofLevel asserted then
    { s with inputs := s.inputs.set l { line with debouncing := none } }
  else startDebounce l asserted s

/-! ## The commands -/

/-- INPUT_LEVEL_CHANGE: the pin of a line takes a level; one it already has is no change (R22 to R24). -/
def execInputLevelChange (l : InputId) (high : Bool) (s : State) : Host.Outcome State Fault Refusal :=
  outsideReset (fun s =>
    let line := s.inputs.get l
    if line.pinHigh = high then s
    else levelChange l { s with inputs := s.inputs.set l { line with pinHigh := high } }) s

/-- DEBOUNCE_EXPIRY: the tentative level becomes the debounced state; with the timer idle no expiry happens (R23, R24). -/
def execDebounceExpiry (l : InputId) (s : State) : Host.Outcome State Fault Refusal :=
  outsideReset (fun s =>
    match (s.inputs.get l).debouncing with
    | none => s
    | some d => takeLevel l d.tentative (await d.timer s)) s

/-- What an expiry of the dwell timer does: the candidate is committed, and the effective posture follows (R30, R32). -/
def commitCandidate (s : State) : State :=
  match s.candidate with
  | none => { s with dwell := none }
  | some c => endEvent (deriveEffective (commit c s))

/-- DWELL_EXPIRY: the candidate is committed; with the timer idle no expiry happens (R30). -/
def execDwellExpiry (s : State) : Host.Outcome State Fault Refusal :=
  outsideReset (fun s =>
    match s.dwell with
    | none => s
    | some t => commitCandidate (await t s)) s

/-- A taken SET_INPUT takes one effect for each field it changes: a changed polarity is a level change under the new
debounce, a changed debounce restarts a running timer with its tentative level (R27). DEDUCED (log 25; safe): all fields
stand before an effect is taken. -/
def configureInput (l : InputId) (cfg : InputConfig) (s : State) : State :=
  let line := s.inputs.get l
  let stored := { s with inputs := s.inputs.set l { line with cfg := cfg } }
  if cfg.polarity ≠ line.cfg.polarity then levelChange l stored
  else
    match line.debouncing with
    | some d => if cfg.debounce ≠ line.cfg.debounce then startDebounce l d.tentative stored else stored
    | none => stored

/-- The owner of SET_INPUT: validation, then clamping of the debounce (R26; log 11 for an adjusted request
that changes no field). -/
def ownSetInput (r : InputRequest) (s : State) : State × Reply :=
  match InputId.ofNumber r.line with
  | none => (s, .bare .invalid)
  | some l =>
    let debounce := clampNat 0 1000 r.cfg.debounce
    (configureInput l { r.cfg with debounce := debounce } s,
      .taken (debounce != r.cfg.debounce) (leBytes 2 debounce))

/-- SET_INPUT (R26, R27). -/
def execSetInput (call : Call) (body : List Byte) (s : State) : Host.Outcome State Fault Refusal :=
  atPort call (fun port => takeRequest .setInput port shapeSetInput ownSetInput body) s

/-- The owner of SET_POSTURE_TIMING: both dwells are clamped, and a running dwell timer is left (R31). -/
def ownSetPostureTiming (r : PostureTimingRequest) (s : State) : State × Reply :=
  let enter := clampNat 0 10000 r.enter
  let relax := clampNat 0 120000 r.relax
  ({ s with enterDwell := enter, relaxDwell := relax },
    .taken (enter != r.enter || relax != r.relax) (leBytes 2 enter ++ leBytes 4 relax))

/-- SET_POSTURE_TIMING (R31). -/
def execSetPostureTiming (call : Call) (body : List Byte) (s : State) : Host.Outcome State Fault Refusal :=
  atPort call (fun port => takeRequest .setPostureTiming port shapeSetPostureTiming ownSetPostureTiming body) s

/-- The slot's content replaced by a request, with what follows where it changes (R32, R33, R35). -/
def placeHint (hint : Option Hint) (s : State) : State :=
  if hint = s.hint then s else endEvent (deriveEffective { s with hint := hint })

/-- A held hint is one from Port P. -/
def heldFromPlatform (hint : Option Hint) : Bool :=
  match hint with
  | some h => h.origin == .platform
  | none => false

/-- The owner of POSTURE_HINT, whose checks are code, origin and restrictiveness (R32 to R35). -/
def ownPostureHint (port : Port) (code : HintCode) (s : State) : State × Reply :=
  match code, port with
  | .unsettled, _ => (s, .bare .invalid)
  | .place h, .platform => (placeHint (some ⟨h, .platform⟩) s, .bare .ok)
  | .noHint, .platform => (placeHint none s, .bare .ok)
  | .place h, .system =>
    if heldFromPlatform s.hint then (s, .bare .denied)
    else if h.lessRestrictive s.committed then (s, .bare .denied)
    else (placeHint (some ⟨h, .system⟩) s, .bare .ok)
  | .noHint, .system =>
    if heldFromPlatform s.hint then (s, .bare .denied) else (placeHint none s, .bare .ok)

/-- POSTURE_HINT (R33 to R35). -/
def execPostureHint (call : Call) (body : List Byte) (s : State) : Host.Outcome State Fault Refusal :=
  atPort call (fun port => takeRequest .postureHint port shapePostureHint (ownPostureHint port) body) s

end Sys2Proof.Machine
end

