-- ==== Sys2Proof/Machine/Profiles.lean ====
section
/-!
DEFINITION. The profile table's commands (chapter 3): SET_PROFILE and SET_SKIN_LIMITS.
-/

namespace Sys2Proof.Machine

open Sys2Proof

/-! ## SET_PROFILE (R46 to R48) -/

/-- Checks 3 to 7 of SET_PROFILE (R46). -/
def entryValid (e : Entry) (lmin : Nat) : Bool :=
  decide (1000 ≤ e.s) && decide (e.s ≤ e.b) && decide (e.b ≤ Config.powerMax) && decide (e.w ≤ 64000)
    && decide (lmin ≤ e.s)

/-- A taken SET_PROFILE stores the entry; a changed entry of the column in use is a re-selection for the domain (R47,
R48). -/
def storeEntry (d : DomainId) (c : Column) (e : Entry) (s : State) : State :=
  let columns := s.profile.get d
  let stored := { s with profile := s.profile.set d (columns.set c e) }
  if c = s.column ∧ e ≠ columns.get c then endEvent (reselectDomain d stored) else stored

/-- The owner of SET_PROFILE (R46, R47). -/
def ownSetProfile (r : ProfileRequest) (s : State) : State × Reply :=
  match DomainId.ofNumber r.domain, Column.ofNumber r.column with
  | some d, some c =>
    if entryValid r.entry (s.domains.get d).lmin then (storeEntry d c r.entry s, .bare .ok)
    else (s, .bare .invalid)
  | _, _ => (s, .bare .invalid)

/-- SET_PROFILE (R46 to R48). -/
def execSetProfile (call : Call) (body : List Byte) (s : State) : Host.Outcome State Fault Refusal :=
  atPort call (fun port => takeRequest .setProfile port shapeSetProfile ownSetProfile body) s

/-! ## SET_SKIN_LIMITS (R50, R51) -/

/-- Every limit lies within the temperature range (R50). -/
def limitsValid (limits : PerColumn Int) : Bool :=
  let ok := fun t : Int => decide (Config.temperatureMin ≤ t) && decide (t ≤ Config.temperatureMax)
  ok limits.safe && ok limits.unsettled && ok limits.desk && ok limits.lap && ok limits.bag

/-- A taken SET_SKIN_LIMITS stores all five limits; a changed limit of the column in use is a re-selection for the zone
(R51). -/
def storeLimits (z : ZoneId) (limits : PerColumn Int) (s : State) : State :=
  let stored := { s with skin := s.skin.set z limits }
  if limits.get s.column = (s.skin.get z).get s.column then stored else endEvent (reselectZone z stored)

/-- The owner of SET_SKIN_LIMITS (R50, R51). -/
def ownSetSkinLimits (r : SkinRequest) (s : State) : State × Reply :=
  match ZoneId.ofNumber r.zone with
  | none => (s, .bare .invalid)
  | some z => if limitsValid r.limits then (storeLimits z r.limits s, .bare .ok) else (s, .bare .invalid)

/-- SET_SKIN_LIMITS (R50, R51). -/
def execSetSkinLimits (call : Call) (body : List Byte) (s : State) : Host.Outcome State Fault Refusal :=
  atPort call (fun port => takeRequest .setSkinLimits port shapeSetSkinLimits ownSetSkinLimits body) s

end Sys2Proof.Machine
end

