-- ==== Sys2Proof/Machine/Reads.lean ====
section
/-!
DEFINITION. The reads (chapters 10 and 11): IDENTIFY, READ_STATUS, READ_GRANTS, READ_DOMAIN, READ_ZONE, READ_CHANNEL and
READ_FAULTS. A read changes nothing but the port's reply slot; its bytes stand in the order of section 11.9.
-/

namespace Sys2Proof.Machine

open Sys2Proof

/-! ## IDENTIFY (R174) -/

/-- The port letter, "P" or "S" (R174). -/
def portLetter : Port → Nat
  | .platform => 0x50
  | .system => 0x53

/-- The fields of IDENTIFY (R174). -/
def identifyFields (port : Port) (s : State) : List Byte :=
  leBytes 1 Config.vendorCode ++ leBytes 2 Config.partCode ++ leBytes 1 Config.revision
    ++ leBytes 1 (portLetter port) ++ leBool s.adrsel

/-- IDENTIFY (R174). -/
def execIdentify (call : Call) (body : List Byte) (s : State) : Host.Outcome State Fault Refusal :=
  atPort call (fun port => takeRequest .identify port shapeEmpty (fun _ t => (t, ⟨.ok, identifyFields port t⟩)) body) s

/-! ## READ_STATUS (R163) -/

/-- The hint slot in a reply: posture and origin, 0xFF and 0xFF for an empty slot (section 11.8). -/
def hintFields (hint : Option Hint) : List Byte :=
  match hint with
  | some h => leBytes 1 h.place.posture.code ++ leBytes 1 h.origin.number
  | none => [0xFF, 0xFF]

/-- A zone in the snapshot. -/
def zoneStatus (z : Zone) : List Byte :=
  leBytes 1 z.state.code ++ leSignedOption 2 z.estimate ++ leBytes 1 z.position ++ leBytes 1 z.percent

/-- A throttle line in the snapshot. -/
def lineStatus (l : ThrottleLine) : List Byte :=
  leBool l.drive ++ leBool l.sensed ++ leBytes 1 l.cause.code ++ leBool l.external

/-- The fields of READ_STATUS (R163, section 11.9). -/
def statusFields (s : State) : List Byte :=
  leBytes 1 s.mode.code
    ++ leBytes 1 s.committed.code ++ leOption 1 (s.candidate.map fun c => c.posture.code) ++ hintFields s.hint
    ++ leBytes 1 s.effective.code
    ++ leBytes 1 s.inputs.lid.state.code ++ leBytes 1 s.inputs.acin.state.code
    ++ leBytes 1 s.inputs.motion.state.code ++ leBytes 1 s.inputs.contact.state.code
    ++ leBytes 1 s.column.number
    ++ zoneStatus s.zones.z0 ++ zoneStatus s.zones.z1 ++ zoneStatus s.zones.z2 ++ zoneStatus s.zones.z3
    ++ lineStatus s.lines.thr0 ++ lineStatus s.lines.thr1 ++ lineStatus s.lines.thr2 ++ lineStatus s.lines.thr3
    ++ leBytes 1 s.supply.source.code ++ leBytes 4 s.supply.available ++ leBytes 4 s.supply.pool
    ++ leBytes 1 s.severity.code ++ leBytes 4 s.uptime

/-- READ_STATUS (R163). -/
def execReadStatus (call : Call) (body : List Byte) (s : State) : Host.Outcome State Fault Refusal :=
  atPort call (fun port => takeRequest .readStatus port shapeEmpty (fun _ t => (t, ⟨.ok, statusFields t⟩)) body) s

/-! ## READ_GRANTS and READ_DOMAIN (R164) -/

/-- A grant record (section 11.9). -/
def grantFields (d : DomainId) (g : Grant) : List Byte :=
  leBytes 1 d.number ++ leBytes 4 g.limit ++ leBytes 1 g.owner.code ++ leBool g.floorApplied
    ++ leBytes 2 g.changeCount ++ leBytes 4 g.changedAt

/-- The fields of READ_GRANTS: the three records, D0 first (R164). -/
def grantsFields (s : State) : List Byte :=
  grantFields .d0 s.grants.d0 ++ grantFields .d1 s.grants.d1 ++ grantFields .d2 s.grants.d2

/-- READ_GRANTS (R164). -/
def execReadGrants (call : Call) (body : List Byte) (s : State) : Host.Outcome State Fault Refusal :=
  atPort call (fun port => takeRequest .readGrants port shapeEmpty (fun _ t => (t, ⟨.ok, grantsFields t⟩)) body) s

/-- S, B and W of an entry. -/
def entryFields (e : Entry) : List Byte := leBytes 4 e.s ++ leBytes 4 e.b ++ leBytes 2 e.w

/-- The entries of a domain in column order. -/
def entriesFields (c : PerColumn Entry) : List Byte :=
  entryFields c.safe ++ entryFields c.unsettled ++ entryFields c.desk ++ entryFields c.lap ++ entryFields c.bag

/-- The account part of READ_DOMAIN; energies in mJ, rounded down (R91). -/
def accountFields (a : Account) (recover : Nat) : List Byte :=
  leBytes 1 a.state.code ++ leBytes 4 (a.credit / 1000) ++ leBytes 4 (a.capacity / 1000) ++ leBytes 1 a.percent
    ++ leBytes 4 a.sEff ++ leBytes 4 a.bEff ++ leBytes 4 a.allowance ++ leBytes 1 recover

/-- The arbitration part of READ_DOMAIN. -/
def arbitrationFields (r : DomainRecord) (demand : Nat) (share : Option Nat) : List Byte :=
  leBool r.arbitrated ++ leBytes 1 r.priority ++ leBytes 4 r.floor ++ leBytes 4 demand ++ leOption 4 share

/-- The resolution part of READ_DOMAIN. -/
def resolutionFields (d : DomainId) (g : Grant) (c : Contributors) (lmin : Nat) : List Byte :=
  grantFields d g ++ leBytes 4 c.allowance ++ leOption 4 c.share ++ leOption 4 c.capP ++ leOption 4 c.capS
    ++ leBytes 4 lmin

/-- The compliance part of READ_DOMAIN. -/
def complianceFields (r : DomainRecord) (c : Compliance) : List Byte :=
  leBytes 1 r.tolerance ++ leBytes 1 r.aboveN ++ leBytes 1 r.belowM ++ leBytes 2 r.settleTime
    ++ leBytes 1 c.state.code ++ leBytes 1 c.above ++ leBytes 1 c.below

/-- The fields of READ_DOMAIN for a controllable domain (R164, section 11.9). -/
def domainFields (d : DomainId) (s : State) : List Byte :=
  let r := s.domains.get d
  leBytes 1 d.number ++ entriesFields (s.profile.get d) ++ accountFields (s.accounts.get d) r.recover
    ++ arbitrationFields r (s.supply.demand.get d) (s.supply.share.get d)
    ++ resolutionFields d (s.grants.get d) (s.contributors.get d) r.lmin
    ++ complianceFields r (s.compliance.get d)

/-- The fields of READ_DOMAIN for D3: the domain, the REST power in the demand field, and the absent marker of every
other field (R164, section 11.9). Every other field is unsigned, so its marker is bytes of 0xFF. -/
def restFields (s : State) : List Byte :=
  leBytes 1 3 ++ absent 50 ++ absent 23 ++ absent 6 ++ leBytes 4 (restValue s.powers.pm3 s.restFail) ++ absent 4
    ++ absent 33 ++ absent 8

/-- The owner of READ_DOMAIN (R164). -/
def ownReadDomain (n : Nat) (s : State) : State × Reply :=
  match DomainId.ofNumber n with
  | some d => (s, ⟨.ok, domainFields d s⟩)
  | none => if n = 3 then (s, ⟨.ok, restFields s⟩) else (s, .bare .invalid)

/-- READ_DOMAIN (R164). -/
def execReadDomain (call : Call) (body : List Byte) (s : State) : Host.Outcome State Fault Refusal :=
  atPort call (fun port => takeRequest .readDomain port shapeIndex ownReadDomain body) s

/-! ## READ_ZONE (R165) -/

/-- That many source slots, those beyond the list absent (section 11.9). -/
def sourceSlots : Nat → List Source → List Byte
  | 0, _ => []
  | k + 1, [] => absent 1 ++ absent 2 ++ sourceSlots k []
  | k + 1, src :: rest => leBytes 1 src.channel.number ++ leBytes 2 src.weight ++ sourceSlots k rest

/-- That many step slots, those beyond the ladder absent (section 11.9). -/
def stepSlots : Nat → List LadderStep → List Byte
  | 0, _ => []
  | k + 1, [] => absent 2 ++ absent 1 ++ stepSlots k []
  | k + 1, step :: rest => leBytes 2 step.offset ++ leBytes 1 step.percent ++ stepSlots k rest

/-- The configuration part of READ_ZONE. -/
def zoneConfigFields (c : ZoneConfig) : List Byte :=
  leBool c.enabled ++ leBytes 1 c.sources.length ++ sourceSlots 3 c.sources ++ leDomains c.influence
    ++ leBytes 2 c.alpha ++ leBytes 2 c.interval ++ leBytes 1 c.hysteresis ++ leBytes 1 c.descentDwell
    ++ leBytes 1 c.tripMargin

/-- The five skin limits of a zone, in column order. -/
def skinFields (limits : PerColumn Int) : List Byte :=
  leSigned 2 limits.safe ++ leSigned 2 limits.unsettled ++ leSigned 2 limits.desk ++ leSigned 2 limits.lap
    ++ leSigned 2 limits.bag

/-- The fields of READ_ZONE (R165, section 11.9). -/
def zoneFields (z : ZoneId) (s : State) : List Byte :=
  let v := s.zones.get z
  leBytes 1 z.number ++ zoneStatus v ++ leBytes 1 v.held ++ leBool v.degraded ++ zoneConfigFields v.cfg
    ++ leBytes 1 v.ladder.length ++ stepSlots 8 v.ladder ++ skinFields (s.skin.get z)

/-- The owner of READ_ZONE (R165). -/
def ownReadZone (n : Nat) (s : State) : State × Reply :=
  match ZoneId.ofNumber n with
  | some z => (s, ⟨.ok, zoneFields z s⟩)
  | none => (s, .bare .invalid)

/-- READ_ZONE (R165). -/
def execReadZone (call : Call) (body : List Byte) (s : State) : Host.Outcome State Fault Refusal :=
  atPort call (fun port => takeRequest .readZone port shapeIndex ownReadZone body) s

/-! ## READ_CHANNEL (R165) -/

/-- The fields of READ_CHANNEL for a temperature channel (section 11.9). -/
def tempFields (c : TempId) (v : TempChannel) : List Byte :=
  leBytes 1 0 ++ leBytes 1 c.number ++ leBool v.cfg.enabled ++ leBytes 1 v.cfg.kind.code ++ leBytes 2 v.cfg.interval
    ++ leSigned 2 v.cfg.offset ++ leBytes 1 v.cfg.holdCount ++ leSigned 2 v.cfg.failValue
    ++ leBytes 1 v.state.code ++ leSignedOption 2 v.value ++ leBytes 1 v.badRun
    ++ leOption 1 (v.firstBad.map BadIndication.code) ++ leOption 4 v.lastGood

/-- The fail value of a power channel in a reply: PM3's, and the absent marker for the other four (R165). -/
def powerFailValue (n : PowerId) (s : State) : Option Nat :=
  match n with
  | .pm3 => some s.restFail
  | .pm0 => none
  | .pm1 => none
  | .pm2 => none
  | .pm4 => none

/-- The fields of READ_CHANNEL for a power channel (section 11.9). -/
def powerFields (n : PowerId) (s : State) : List Byte :=
  let v := s.powers.get n
  leBytes 1 1 ++ leBytes 1 n.number ++ leBytes 1 v.interval ++ leBytes 1 v.holdCount
    ++ leOption 4 (powerFailValue n s) ++ leBytes 1 v.state.code ++ leOption 4 v.value ++ leBytes 1 v.badRun

/-- The owner of READ_CHANNEL (R165). -/
def ownReadChannel (r : ChannelClass × Nat) (s : State) : State × Reply :=
  match r.1 with
  | .temperature =>
    match TempId.ofNumber r.2 with
    | some c => (s, ⟨.ok, tempFields c (s.temps.get c)⟩)
    | none => (s, .bare .invalid)
  | .power =>
    match PowerId.ofNumber r.2 with
    | some n => (s, ⟨.ok, powerFields n s⟩)
    | none => (s, .bare .invalid)

/-- READ_CHANNEL (R165). -/
def execReadChannel (call : Call) (body : List Byte) (s : State) : Host.Outcome State Fault Refusal :=
  atPort call (fun port => takeRequest .readChannel port shapeReadChannel ownReadChannel body) s

/-! ## READ_FAULTS (R166) -/

/-- The present flag of a fault record: 0 no, 1 yes, 0xFF for an event kind (section 11.9). -/
def presentField (present : Option Bool) : List Byte :=
  match present with
  | some b => leBool b
  | none => absent 1

/-- A fault record (section 11.9). -/
def faultFields (r : FaultRecord) : List Byte :=
  leBytes 1 r.kind.code ++ leBytes 1 r.subject ++ leBytes 1 r.severity.code ++ presentField r.present
    ++ leBytes 1 r.count ++ leBytes 4 r.firstTime ++ leBytes 4 r.lastTime ++ leSignedOption 4 r.firstValue

/-- The fields of READ_FAULTS from a start index: the record count, how many are returned, and up to 4 records in log
order (R166). -/
def faultsFields (start : Nat) (log : List FaultRecord) : List Byte :=
  let records := (log.drop start).take 4
  leBytes 1 log.length ++ leBytes 1 records.length ++ (records.map faultFields).flatten

/-- READ_FAULTS (R166). -/
def execReadFaults (call : Call) (body : List Byte) (s : State) : Host.Outcome State Fault Refusal :=
  atPort call (fun port => takeRequest .readFaults port shapeIndex (fun start t => (t, ⟨.ok, faultsFields start t.faults⟩)) body) s

end Sys2Proof.Machine
end

