-- ==== Sys2Proof/Machine/Sensing.lean ====
section
/-!
DEFINITION. The sensing unit (chapter 1): the conversion queue, the converter, result handling and sample delivery, with
its commands INTERVAL_TIMER_EXPIRY, CONVERSION_END, SAMPLE_ARRIVAL, SET_CHANNEL and SET_POWER_CHANNEL.
-/

namespace Sys2Proof.Machine

open Sys2Proof

/-- The channel's record replaced. -/
def setTempRecord (c : TempId) (v : TempChannel) (s : State) : State := { s with temps := s.temps.set c v }

/-- The power channel's record replaced. -/
def setPowerRecord (n : PowerId) (v : PowerChannel) (s : State) : State := { s with powers := s.powers.set n v }

/-! ## Conversion queue and converter (R2 to R6) -/

/-- While the converter is idle and the queue is not empty, the head is removed and its conversion begins with the kind
and offset in force (R5). -/
def startConversion (s : State) : State :=
  match s.converter, s.queue with
  | none, c :: rest =>
    let cfg := (s.temps.get c).cfg
    { s with
      queue := rest
      converter := some
        { channel := c, kind := cfg.kind, offset := cfg.offset, voided := false
          timer := Timer.start (conversionTime cfg.kind) } }
  | _, _ => s

/-- The converter is converting a channel, voided or not (R3). -/
def converting (c : TempId) (s : State) : Bool :=
  match s.converter with
  | some j => j.channel == c
  | none => false

/-- A channel requests a conversion: it joins the queue, or overruns (R4). -/
def requestConversion (c : TempId) (s : State) : State :=
  if s.queue.contains c || converting c s then occur .convOverrun c.number none s
  else startConversion { s with queue := s.queue ++ [c] }

/-- INTERVAL_TIMER_EXPIRY: the timer restarts at once and the channel requests a conversion; with the timer stopped no
expiry happens (R2, R4). -/
def execIntervalTimerExpiry (c : TempId) (s : State) : Host.Outcome State Fault Refusal :=
  outsideReset (fun s =>
    match (s.temps.get c).timer with
    | none => s
    | some t =>
      let due := await t s
      let v := due.temps.get c
      requestConversion c (setTempRecord c { v with timer := some (Timer.start v.cfg.interval) } due)) s

/-- A conversion in progress for a channel is voided (R6). -/
def voidConversion (c : TempId) (s : State) : State :=
  { s with converter := s.converter.map fun j => if j.channel = c then { j with voided := true } else j }

/-! ## Result handling (R8 to R10) -/

/-- A channel after a conversion that ended with a reading, before its offset (R8). -/
def TempChannel.good (v : TempChannel) (reading offset : Int) (uptime : Nat) : TempChannel :=
  { v with
    value := some (clampInt Config.temperatureMin Config.temperatureMax (reading + offset))
    state := .valid, badRun := 0, firstBad := none, lastGood := some uptime }

/-- A channel after a conversion that ended out of range (R9). -/
def TempChannel.bad (v : TempChannel) (indication : BadIndication) : TempChannel :=
  let run := min 8 (v.badRun + 1)
  { v with
    badRun := run
    firstBad := if v.badRun = 0 then some indication else v.firstBad
    state := stateAfterBad v.state run v.cfg.holdCount }

/-- What follows when source channels have entered or left FAILED: the zones' flags and conditions, and the end of the
event (R60, R63). -/
def sourcesChanged (s : State) : State := endEvent (followAllSources s)

/-- A channel's record changes from v: entering FAILED reports TCH_FAILED with the first bad indication, leaving FAILED
its end, and the zones follow (R10). -/
def changeTemp (c : TempId) (v next : TempChannel) (s : State) : State :=
  let stored := setTempRecord c next s
  if v.state ≠ .failed ∧ next.state = .failed then
    sourcesChanged (occur .tchFailed c.number (next.firstBad.map fun b => (b.code : Int)) stored)
  else if v.state = .failed ∧ next.state ≠ .failed then
    sourcesChanged (endCondition .tchFailed c.number stored)
  else stored

/-- The outcome of a conversion that is not voided, at its channel (R8, R9). -/
def handleOutcome (j : Conversion) (result : RawResult) (s : State) : State :=
  let v := s.temps.get j.channel
  match rangeTest result with
  | .reading t => changeTemp j.channel v (v.good t j.offset s.uptime) s
  | .outOfRange indication => changeTemp j.channel v (v.bad indication) s

/-- CONVERSION_END: the converter goes idle, the outcome is handed to the channel unless voided, and the next head is
taken; with the converter idle no conversion ends (R5, R6). -/
def execConversionEnd (result : RawResult) (s : State) : Host.Outcome State Fault Refusal :=
  outsideReset (fun s =>
    match s.converter with
    | none => s
    | some j =>
      let idle := { await j.timer s with converter := none }
      startConversion (if j.voided then idle else handleOutcome j result idle)) s

/-! ## Power channels (R15 to R19) -/

/-- A power channel after a sample (R16). -/
def PowerChannel.after (v : PowerChannel) (sample : Option Nat) : PowerChannel :=
  match sample with
  | some power => { v with value := some (min power Config.powerMax), state := .valid, badRun := 0 }
  | none =>
    let run := min 8 (v.badRun + 1)
    { v with badRun := run, state := stateAfterBad v.state run v.holdCount }

/-- PCH_FAILED or its end, as a power channel enters or leaves FAILED (R19). -/
def reportPower (n : PowerId) (old new : ChannelState) (s : State) : State :=
  if old ≠ .failed ∧ new = .failed then occur .pchFailed n.number none s
  else if old = .failed ∧ new ≠ .failed then endCondition .pchFailed n.number s
  else s

/-- What an arrival at a domain's channel delivers, none while STARTING; the substitute is B of the column in use (R17,
R43). -/
def domainDelivery (d : DomainId) (v : PowerChannel) (s : State) : Option (Quality × Nat) :=
  match v.state with
  | .valid => some (.valid, v.value.getD 0)
  | .holding => some (.held, v.value.getD 0)
  | .failed => some (.substitute, ((s.profile.get d).get s.column).b)
  | .starting => none
  | .disabled => none

/-- One delivery to a domain's compliance and account. DEDUCED (log 15; safe): compliance first, which is the result that
R123 prescribes for either order. -/
def deliverToDomain (d : DomainId) (v : PowerChannel) (s : State) : State :=
  match domainDelivery d v s with
  | none => s
  | some (quality, power) => endEvent (accountDelivery d power v.interval (complianceDelivery d quality power s))

/-- What an arrival at PM4 gives the watch: a delivery in VALID and HOLDING, and a cancelled timer as it enters FAILED
(R17, R108). -/
def deliverToWatch (old : ChannelState) (v : PowerChannel) (s : State) : State :=
  match v.state with
  | .valid => endEvent (watchDelivery (v.value.getD 0) s)
  | .holding => endEvent (watchDelivery (v.value.getD 0) s)
  | .failed => if old = .failed then s else watchFailure s
  | .starting => s
  | .disabled => s

/-- The arbiter recomputes where REST is no longer the value it was (R98). -/
def restChange (before : Nat) (s : State) : State :=
  if restValue s.powers.pm3 s.restFail = before then s else endEvent (recomputeShares s)

/-- The delivery of an arrival to the channel's consumers (section 1.6, R17, R18). -/
def deliver (n : PowerId) (old : PowerChannel) (v : PowerChannel) (s : State) : State :=
  match n with
  | .pm0 => deliverToDomain .d0 v s
  | .pm1 => deliverToDomain .d1 v s
  | .pm2 => deliverToDomain .d2 v s
  | .pm3 => restChange (restValue old s.restFail) s
  | .pm4 => deliverToWatch old.state v s

/-- SAMPLE_ARRIVAL: a sample updates the channel, is delivered, and the timer restarts (R15 to R19). -/
def execSampleArrival (n : PowerId) (sample : Option Nat) (s : State) : Host.Outcome State Fault Refusal :=
  outsideReset (fun s =>
    let due := await (s.powers.get n).timer s
    let old := due.powers.get n
    let v := { old.after sample with timer := Timer.start old.interval }
    deliver n old v (reportPower n old.state v.state (setPowerRecord n v due))) s

/-! ## SET_CHANNEL (R11 to R14) -/

/-- A channel is a source of an enabled zone (R11). -/
def usedByZone (c : TempId) (s : State) : Bool :=
  ZoneId.all.any fun z =>
    let cfg := (s.zones.get z).cfg
    cfg.enabled && cfg.sources.any fun src => src.channel == c

/-- The validation of SET_CHANNEL for a channel that exists (R11, item 2). -/
def channelValid (c : TempId) (cfg : ChannelConfig) (s : State) : Bool :=
  decide (-100 ≤ cfg.offset) && decide (cfg.offset ≤ 100) && decide (cfg.holdCount ≤ 7)
    && decide (Config.temperatureMin ≤ cfg.failValue) && decide (cfg.failValue ≤ Config.temperatureMax)
    && !((s.temps.get c).cfg.enabled && !cfg.enabled && usedByZone c s)

/-- A channel with no good value and no bad run, in a state (R12, R13, R14). -/
def TempChannel.emptied (v : TempChannel) (state : ChannelState) : TempChannel :=
  { v with state := state, value := none, badRun := 0, firstBad := none, lastGood := none }

/-- A taken SET_CHANNEL applies all of its fields together, with the effects of R12, R13 or R14. -/
def configureChannel (c : TempId) (cfg : ChannelConfig) (s : State) : State :=
  let v := s.temps.get c
  if cfg = v.cfg then s
  else
    match v.cfg.enabled, cfg.enabled with
    | false, false => setTempRecord c { v with cfg := cfg } s
    | false, true =>
      setTempRecord c
        { v.emptied .starting with cfg := cfg, timer := some (Timer.start cfg.interval) } s
    | true, false =>
      changeTemp c v { v.emptied .disabled with cfg := cfg, timer := none }
        (voidConversion c { s with queue := s.queue.filter fun q => q != c })
    | true, true =>
      let kept := if cfg.kind = v.cfg.kind then v else v.emptied .starting
      changeTemp c v { kept with cfg := cfg, timer := some (Timer.start cfg.interval) } (voidConversion c s)

/-- The owner of SET_CHANNEL: mode, validation, clamping (R11). DEDUCED (log 13; unsafe): a channel number above 7 is
INVALID in either mode. DESIGN CHOICE (log 11; unsafe): fields are compared with the stored ones after the adjustment, and
an adjusted request that changes none is CLAMPED. -/
def ownSetChannel (r : ChannelRequest) (s : State) : State × Reply :=
  match TempId.ofNumber r.channel with
  | none => (s, .bare .invalid)
  | some c =>
    let present := (s.temps.get c).cfg
    let interval := clampStep 10 10 2550 r.cfg.interval
    if s.mode = .active ∧ (r.cfg.enabled ≠ present.enabled ∨ r.cfg.kind ≠ present.kind) then (s, .bare .state)
    else if !channelValid c r.cfg s then (s, .bare .invalid)
    else
      (configureChannel c { r.cfg with interval := interval } s,
        .taken (interval != r.cfg.interval) (leBytes 2 interval))

/-- SET_CHANNEL (R11 to R14). -/
def execSetChannel (call : Call) (body : List Byte) (s : State) : Host.Outcome State Fault Refusal :=
  atPort call (fun port => takeRequest .setChannel port shapeSetChannel ownSetChannel body) s

/-! ## SET_POWER_CHANNEL (R20) -/

/-- A taken SET_POWER_CHANNEL: a change of interval restarts the sample timer; PM3's fail value changes REST at once where
PM3 is STARTING or FAILED (R18, R20). -/
def configurePower (n : PowerId) (interval holdCount failValue : Nat) (s : State) : State :=
  let v := s.powers.get n
  let timer := if interval = v.interval then v.timer else Timer.start interval
  let stored := setPowerRecord n { v with interval := interval, holdCount := holdCount, timer := timer } s
  match n with
  | .pm3 => restChange (restValue s.powers.pm3 s.restFail) { stored with restFail := failValue }
  | .pm0 => stored
  | .pm1 => stored
  | .pm2 => stored
  | .pm4 => stored

/-- The owner of SET_POWER_CHANNEL: validation, then clamping of the interval (R20). -/
def ownSetPowerChannel (r : PowerChannelRequest) (s : State) : State × Reply :=
  match PowerId.ofNumber r.channel with
  | none => (s, .bare .invalid)
  | some n =>
    if 7 < r.holdCount ∨ (n = .pm3 ∧ Config.powerMax < r.failValue) then (s, .bare .invalid)
    else
      let interval := clampNat 1 16 r.interval
      (configurePower n interval r.holdCount r.failValue s, .taken (interval != r.interval) (leBytes 1 interval))

/-- SET_POWER_CHANNEL (R20). -/
def execSetPowerChannel (call : Call) (body : List Byte) (s : State) : Host.Outcome State Fault Refusal :=
  atPort call (fun port => takeRequest .setPowerChannel port shapeSetPowerChannel ownSetPowerChannel body) s

end Sys2Proof.Machine
end

