-- ==== Sys2Proof/Machine/SupplyCommands.lean ====
section
/-!
DEFINITION. The supply arbiter's commands (chapter 6): TRIP_TIMER_EXPIRY, SUPPLY_REPORT and SET_SUPPLY_CONFIG.
-/

namespace Sys2Proof.Machine

open Sys2Proof

/-- What an expiry of the trip timer does: the watch becomes TRIPPED and the FATAL SUPPLY_TRIP becomes present with the
power of the most recent judged delivery (R106). -/
def supplyTrips (s : State) : State :=
  endEvent (occurFatal .supplyTrip 0 (some s.watch.lastSys) { s with watch := { s.watch with state := .tripped } })

/-- TRIP_TIMER_EXPIRY; with the timer idle no expiry happens (R106). -/
def execTripTimerExpiry (s : State) : Host.Outcome State Fault Refusal :=
  outsideReset (fun s =>
    match s.watch.state with
    | .timing t => supplyTrips (await t s)
    | .clear => s
    | .tripped => s) s

/-- The owner of SUPPLY_REPORT: every field is clamped, the report is stored, and the arbiter recomputes (R93). -/
def ownSupplyReport (r : ReportRequest) (s : State) : State × Reply :=
  let rating := clampNat 0 Config.powerMax r.rating
  let derate := clampNat 50 100 r.derate
  let battery := clampNat 0 Config.powerMax r.battery
  (endEvent (recomputeShares
      { s with report := { rating := rating, derate := derate, battery := some battery, received := true } }),
    .taken (rating != r.rating || derate != r.derate || battery != r.battery)
      (leBytes 4 rating ++ leBytes 1 derate ++ leBytes 4 battery))

/-- SUPPLY_REPORT (R93). -/
def execSupplyReport (call : Call) (body : List Byte) (s : State) : Host.Outcome State Fault Refusal :=
  atPort call (fun port => takeRequest .supplyReport port shapeSupplyReport ownSupplyReport body) s

/-- The validation of SET_SUPPLY_CONFIG (R94). -/
def supplyConfigValid (c : SupplyConfig) : Bool :=
  decide (c.margin ≤ 20000) && decide (5000 ≤ c.unknownRating) && decide (c.unknownRating ≤ Config.powerMax)
    && decide (5000 ≤ c.batteryDefault) && decide (c.batteryDefault ≤ Config.powerMax) && decide (c.tripPercent ≤ 50)

/-- A taken SET_SUPPLY_CONFIG stores all five fields and the arbiter recomputes; a running trip timer is left (R95). -/
def configureSupply (c : SupplyConfig) (s : State) : State :=
  if c = s.supplyCfg then s else endEvent (recomputeShares { s with supplyCfg := c })

/-- The owner of SET_SUPPLY_CONFIG: validation, then clamping of the trip time (R94; log 11 for an adjusted
request that changes no field). -/
def ownSetSupplyConfig (c : SupplyConfig) (s : State) : State × Reply :=
  if supplyConfigValid c then
    let time := clampNat 1 1000 c.tripTime
    (configureSupply { c with tripTime := time } s, .taken (time != c.tripTime) (leBytes 2 time))
  else (s, .bare .invalid)

/-- SET_SUPPLY_CONFIG (R94, R95). -/
def execSetSupplyConfig (call : Call) (body : List Byte) (s : State) : Host.Outcome State Fault Refusal :=
  atPort call (fun port => takeRequest .setSupplyConfig port shapeSetSupplyConfig ownSetSupplyConfig body) s

end Sys2Proof.Machine
end

