-- ==== Sys2Proof/Machine/ZoneCommands.lean ====
section
/-!
DEFINITION. The zone estimator's commands (chapter 4): ZONE_UPDATE, SET_ZONE and SET_LADDER.
-/

namespace Sys2Proof.Machine

open Sys2Proof

/-! ## ZONE_UPDATE (R55, R56) -/

/-- ZONE_UPDATE: the timer restarts at once and the zone makes one update, unless a source offers no consumer value; with
the timer stopped no expiry happens (R55, R56). -/
def execZoneUpdate (z : ZoneId) (s : State) : Host.Outcome State Fault Refusal :=
  outsideReset (fun s =>
    match (s.zones.get z).timer with
    | none => s
    | some t =>
      let due := await t s
      let v := due.zones.get z
      let restarted := setZoneRecord z { v with timer := some (Timer.start v.cfg.interval) } due
      match weightedSum (fun c => (restarted.temps.get c).consumer) v.cfg.sources with
      | none => restarted
      | some sum => endEvent (updateZone z sum restarted)) s

/-! ## SET_ZONE (R70 to R72) -/

/-- The sources that the slots name, none where a channel number is above 7 (R70). -/
def sourcesOf : List SourceSlot → Option (List Source)
  | [] => some []
  | slot :: rest =>
    match TempId.ofNumber slot.channel, sourcesOf rest with
    | some c, some sources => some (⟨c, slot.weight⟩ :: sources)
    | _, _ => none

/-- The sum of the weights of a source list. -/
def weightTotal : List Source → Nat
  | [] => 0
  | src :: rest => src.weight + weightTotal rest

/-- The validation of SET_ZONE for a zone and channels that exist (R70, item 1). -/
def zoneValid (r : ZoneRequest) (sources : List Source) (s : State) : Bool :=
  decide (1 ≤ r.alpha) && decide (r.alpha ≤ 256) && decide (r.hysteresis ≤ 100)
    && decide (1 ≤ r.descentDwell) && decide (r.descentDwell ≤ 15) && decide (r.tripMargin ≤ 150)
    && decide (r.sourceCount ≤ 3)
    && sources.all (fun src => decide (1 ≤ src.weight) && decide (src.weight ≤ 256))
    && (sources.isEmpty || (decide (sources.map (·.channel)).Nodup && weightTotal sources == 256))
    && (!r.enabled
      || (!sources.isEmpty && sources.all (fun src => (s.temps.get src.channel).cfg.enabled)
        && (r.influence.d0 || r.influence.d1 || r.influence.d2)))

/-- A zone with no estimate, in a state, at position 0 and 100 percent (R54). -/
def Zone.emptied (v : Zone) (state : ZoneState) : Zone :=
  { v with state := state, estimate := none, position := 0, held := 0, percent := 100 }

/-- What a zone leaves behind when SET_ZONE restarts or disables it: the end of its trip with TRIP, and LADDER if its
position was above 0 (R71, R72). -/
def leaveZone (z : ZoneId) (v : Zone) (s : State) : State :=
  let ended :=
    match v.state with
    | .tripped => raise .trip (endCondition .zoneTrip z.number s)
    | .off => s
    | .starting => s
    | .active => s
  if 0 < v.position then raise .ladder ended else ended

/-- A taken SET_ZONE: it restarts, disables or enables the zone, or stores the fields of one that stays disabled (R71,
R72). -/
def configureZone (z : ZoneId) (cfg : ZoneConfig) (s : State) : State :=
  let v := s.zones.get z
  if cfg = v.cfg then s
  else
    match v.cfg.enabled, cfg.enabled with
    | false, false => setZoneRecord z { v with cfg := cfg } s
    | _, true =>
      endEvent (recomputeThermal (followSources z (leaveZone z v
        (setZoneRecord z { v.emptied .starting with cfg := cfg, timer := some (Timer.start cfg.interval) } s))))
    | true, false =>
      endEvent (recomputeThermal (followSources z (leaveZone z v
        (setZoneRecord z { v.emptied .off with cfg := cfg, timer := none } s))))

/-- The owner of SET_ZONE: validation, then clamping of the update interval (R70). DESIGN CHOICE (log 11; unsafe): fields
are compared with the stored ones after the adjustment, and an adjusted request that changes none is CLAMPED. -/
def ownSetZone (r : ZoneRequest) (s : State) : State × Reply :=
  match ZoneId.ofNumber r.zone, sourcesOf r.slots with
  | some z, some sources =>
    if zoneValid r sources s then
      let interval := clampStep 100 100 10000 r.interval
      (configureZone z
          { enabled := r.enabled, sources := sources, influence := r.influence, alpha := r.alpha, interval := interval
            hysteresis := r.hysteresis, descentDwell := r.descentDwell, tripMargin := r.tripMargin } s,
        .taken (interval != r.interval) (leBytes 2 interval))
    else (s, .bare .invalid)
  | _, _ => (s, .bare .invalid)

/-- SET_ZONE (R70 to R72). -/
def execSetZone (call : Call) (body : List Byte) (s : State) : Host.Outcome State Fault Refusal :=
  atPort call (fun port => takeRequest .setZone port shapeSetZone ownSetZone body) s

/-! ## SET_LADDER (R73, R74) -/

/-- The tests of a ladder: ranges, offsets strictly falling, percents not rising (R73). -/
def ladderValid : List LadderStep → Bool
  | [] => true
  | [a] => decide (a.offset ≤ 300) && decide (a.percent ≤ 100)
  | a :: b :: rest =>
    decide (a.offset ≤ 300) && decide (a.percent ≤ 100) && decide (b.offset < a.offset) && decide (b.percent ≤ a.percent)
      && ladderValid (b :: rest)

/-- A taken SET_LADDER: the steps are stored, a position above the new step count is clamped with LADDER raised, and the
percent and the thermal percents follow; no trip check and no ladder movement is made (R74). -/
def configureLadder (z : ZoneId) (steps : List LadderStep) (s : State) : State :=
  let v := s.zones.get z
  if steps = v.ladder then s
  else
    let stored := setZoneRecord z { v with ladder := steps } s
    if steps.length < v.position then endEvent (recomputeThermal (moveTo z steps.length stored))
    else
      endEvent (recomputeThermal
        (setZoneRecord z { v with ladder := steps, percent := percentAt steps v.position } s))

/-- The owner of SET_LADDER (R73, R74). -/
def ownSetLadder (r : LadderRequest) (s : State) : State × Reply :=
  match ZoneId.ofNumber r.zone with
  | none => (s, .bare .invalid)
  | some z => if ladderValid r.steps then (configureLadder z r.steps s, .bare .ok) else (s, .bare .invalid)

/-- SET_LADDER (R73, R74). -/
def execSetLadder (call : Call) (body : List Byte) (s : State) : Host.Outcome State Fault Refusal :=
  atPort call (fun port => takeRequest .setLadder port shapeSetLadder ownSetLadder body) s

end Sys2Proof.Machine
end

