-- ==== Sys2Proof/Machine/Dispatch.lean ====
section
/-!
DEFINITION. One arm for each command.
-/

namespace Sys2Proof.Machine

def exec (i : Instr) (s : State) : Host.Outcome State Fault Refusal :=
  match i with
  | .reset edge pins lines => Sys2Proof.Machine.execReset edge pins lines s
  | .intervalTimerExpiry c => Sys2Proof.Machine.execIntervalTimerExpiry c s
  | .conversionEnd result => Sys2Proof.Machine.execConversionEnd result s
  | .sampleArrival n sample => Sys2Proof.Machine.execSampleArrival n sample s
  | .tripTimerExpiry => Sys2Proof.Machine.execTripTimerExpiry s
  | .inputLevelChange l high => Sys2Proof.Machine.execInputLevelChange l high s
  | .debounceExpiry l => Sys2Proof.Machine.execDebounceExpiry l s
  | .dwellExpiry => Sys2Proof.Machine.execDwellExpiry s
  | .zoneUpdate z => Sys2Proof.Machine.execZoneUpdate z s
  | .settleTimerExpiry d => Sys2Proof.Machine.execSettleTimerExpiry d s
  | .sensedLevelChange l high => Sys2Proof.Machine.execSensedLevelChange l high s
  | .readbackWindowExpiry l => Sys2Proof.Machine.execReadbackWindowExpiry l s
  | .badFrame call bytes => Sys2Proof.Machine.execBadFrame call bytes s
  | .unknown call kind body => Sys2Proof.Machine.execUnknown call kind body s
  | .replyRead call clocked => Sys2Proof.Machine.execReplyRead call clocked s
  | .identify call body => Sys2Proof.Machine.execIdentify call body s
  | .readStatus call body => Sys2Proof.Machine.execReadStatus call body s
  | .readGrants call body => Sys2Proof.Machine.execReadGrants call body s
  | .readDomain call body => Sys2Proof.Machine.execReadDomain call body s
  | .readZone call body => Sys2Proof.Machine.execReadZone call body s
  | .readChannel call body => Sys2Proof.Machine.execReadChannel call body s
  | .readFaults call body => Sys2Proof.Machine.execReadFaults call body s
  | .readNotices call body => Sys2Proof.Machine.execReadNotices call body s
  | .clearNotices call body => Sys2Proof.Machine.execClearNotices call body s
  | .setNoticeMask call body => Sys2Proof.Machine.execSetNoticeMask call body s
  | .clearFaults call body => Sys2Proof.Machine.execClearFaults call body s
  | .setChannel call body => Sys2Proof.Machine.execSetChannel call body s
  | .setPowerChannel call body => Sys2Proof.Machine.execSetPowerChannel call body s
  | .setInput call body => Sys2Proof.Machine.execSetInput call body s
  | .setPostureTiming call body => Sys2Proof.Machine.execSetPostureTiming call body s
  | .setZone call body => Sys2Proof.Machine.execSetZone call body s
  | .setLadder call body => Sys2Proof.Machine.execSetLadder call body s
  | .setProfile call body => Sys2Proof.Machine.execSetProfile call body s
  | .setSkinLimits call body => Sys2Proof.Machine.execSetSkinLimits call body s
  | .setDomain call body => Sys2Proof.Machine.execSetDomain call body s
  | .setRouting call body => Sys2Proof.Machine.execSetRouting call body s
  | .setSupplyConfig call body => Sys2Proof.Machine.execSetSupplyConfig call body s
  | .supplyReport call body => Sys2Proof.Machine.execSupplyReport call body s
  | .setCap call body => Sys2Proof.Machine.execSetCap call body s
  | .postureHint call body => Sys2Proof.Machine.execPostureHint call body s
  | .forceLine call body => Sys2Proof.Machine.execForceLine call body s
  | .activate call body => Sys2Proof.Machine.execActivate call body s
  | .deactivate call body => Sys2Proof.Machine.execDeactivate call body s

end Sys2Proof.Machine
end

