-- ==== Sys2Proof/Machine/Step.lean ====
section
/-!
DEFINITION. One step: the command at the front of the queue, or one millisecond where none waits.
-/

namespace Sys2Proof.Machine

open Sys2Proof

/-- One step: the front command is taken from the queue and its meaning answers. DESIGN CHOICE (log 2; safe): with no
command waiting, one millisecond passes; while RST_N is low no clock of the part runs. -/
def step (s : State) : Host.Outcome State Fault Refusal :=
  match s.pending with
  | [] => outsideReset (elapse 1) s
  | c :: rest => exec c { s with pending := rest }

/-- The state with the command that a table word spells at the front of its queue; no word spells one (log 22). -/
def State.withFetchWord (s : State) (nbits w : Nat) : State :=
  match decodeTableWord nbits w with
  | some c => { s with pending := c :: s.pending }
  | none => s

end Sys2Proof.Machine
end

