-- ==== Sys2Proof/Safety.lean ====
section
/-!
DEFINITION. What the claims about the part are stated in: the invariants that its rules name, and frames. A frame is said
with an eraser: `t.withoutLog = s.withoutLog` says that t and s agree in everything but the fault log,
its summary and the notices.
-/

namespace Sys2Proof.Machine

open Sys2Proof

/-! ## Erasers: each puts the fields it names to fixed values, so that an equation says that the others agree -/

/-- s without its fault log, severity summary and notices. -/
def State.withoutLog (s : State) : State :=
  { s with
    faults := [], severity := .clear, notices := State.reset.notices }

/-- s without what offers to the arbiter and the resolver write: allocation, contributors, grants, compliance, notices, and
the free value that orders the offers (log 4). -/
def State.withoutOffers (s : State) : State :=
  { s with
    supply := State.reset.supply, contributors := State.reset.contributors, grants := State.reset.grants
    compliance := State.reset.compliance, notices := State.reset.notices, schedule := State.reset.schedule }

/-- s without what the limit chain writes: what offers write, and the thermal percents and the accounts. -/
def State.withoutLimits (s : State) : State :=
  { s with
    thermal := State.reset.thermal, accounts := State.reset.accounts, supply := State.reset.supply
    contributors := State.reset.contributors, grants := State.reset.grants
    compliance := State.reset.compliance, notices := State.reset.notices, schedule := State.reset.schedule }

/-- s without what a column switch reaches: what the limit chain writes, and the zone records and the log. -/
def State.withoutSwitch (s : State) : State :=
  { s with
    zones := State.reset.zones, faults := [], severity := .clear, thermal := State.reset.thermal
    accounts := State.reset.accounts, supply := State.reset.supply, contributors := State.reset.contributors
    grants := State.reset.grants, compliance := State.reset.compliance, notices := State.reset.notices
    schedule := State.reset.schedule }

/-- s without what leaving ACTIVE reaches: what a column switch reaches, and mode, column in use, hint slot, effective
posture and caps. -/
def State.withoutFall (s : State) : State :=
  { s with
    mode := .safe, column := .safe, hint := none, effective := .unsettled, caps := State.reset.caps
    zones := State.reset.zones, faults := [], severity := .clear, thermal := State.reset.thermal
    accounts := State.reset.accounts, supply := State.reset.supply, contributors := State.reset.contributors
    grants := State.reset.grants, compliance := State.reset.compliance, notices := State.reset.notices
    schedule := State.reset.schedule }

/-- s without what the end of an event writes: line records, fault records and notices. -/
def State.withoutEnd (s : State) : State :=
  { s with
    lines := State.reset.lines, faults := [], notices := State.reset.notices }

/-- s without what the limit chain and the end of an event write. -/
def State.withoutChain (s : State) : State :=
  { s with
    lines := State.reset.lines, faults := [], thermal := State.reset.thermal, accounts := State.reset.accounts
    supply := State.reset.supply, contributors := State.reset.contributors, grants := State.reset.grants
    compliance := State.reset.compliance, notices := State.reset.notices, schedule := State.reset.schedule }

/-- s without what a column switch and the end of an event write. -/
def State.withoutUpdate (s : State) : State :=
  { s with
    lines := State.reset.lines, zones := State.reset.zones, faults := [], severity := .clear
    thermal := State.reset.thermal, accounts := State.reset.accounts, supply := State.reset.supply
    contributors := State.reset.contributors, grants := State.reset.grants
    compliance := State.reset.compliance, notices := State.reset.notices, schedule := State.reset.schedule }

/-- s without what leaving ACTIVE and the end of an event write. -/
def State.withoutEvent (s : State) : State :=
  { s with
    lines := State.reset.lines, mode := .safe, column := .safe, hint := none, effective := .unsettled
    caps := State.reset.caps, zones := State.reset.zones, faults := [], severity := .clear
    thermal := State.reset.thermal, accounts := State.reset.accounts, supply := State.reset.supply
    contributors := State.reset.contributors, grants := State.reset.grants
    compliance := State.reset.compliance, notices := State.reset.notices, schedule := State.reset.schedule }

/-! ## Sensing unit -/

/-- R3, R5: the queue holds no channel twice, at most 8 entries and not the channel being converted; the converter is
never idle with a channel waiting. -/
def State.QueueSafe (s : State) : Prop :=
  s.queue.Nodup ∧ s.queue.length ≤ 8 ∧ (∀ j, s.converter = some j → j.channel ∉ s.queue) ∧
    (s.converter = none → s.queue = [])

/-- R1, R2, R8, R9, R13: what a temperature channel's fields hold in each of its states. -/
def TempChannel.Safe (v : TempChannel) : Prop :=
  (v.state = .disabled ↔ v.cfg.enabled = false) ∧
    v.timer.isSome = v.cfg.enabled ∧
    (v.state = .valid ∨ v.state = .holding → v.value.isSome) ∧
    (v.state = .disabled ∨ v.state = .starting → v.value = none) ∧
    v.value.isSome = v.lastGood.isSome ∧
    (v.firstBad = none ↔ v.badRun = 0) ∧
    v.badRun ≤ 8

/-- R15, R16: what a power channel's fields hold. -/
def PowerChannel.Safe (v : PowerChannel) : Prop :=
  v.state ≠ .disabled ∧ (v.state = .valid ∨ v.state = .holding → v.value.isSome) ∧ v.badRun ≤ 8 ∧
    ∀ p, v.value = some p → p ≤ 150000

/-- R1, R6, R13, R16: every channel is safe, and only an enabled channel waits in the queue or has a conversion that is not
voided. -/
def State.ChannelsSafe (s : State) : Prop :=
  (∀ c, (s.temps.get c).Safe) ∧ (∀ n, (s.powers.get n).Safe) ∧
    (∀ c ∈ s.queue, (s.temps.get c).cfg.enabled = true) ∧
    ∀ j, s.converter = some j → j.voided = false → (s.temps.get j.channel).cfg.enabled = true

/-- A temperature lies within −400 … 1500 (00_scope.md section 4.1). -/
def InRange (t : Int) : Prop := -400 ≤ t ∧ t ≤ 1500

/-- R8, R57, R59: every value, fail value and estimate lies within −400 … 1500; the weights of an enabled zone sum to 256
and its coefficient is at most 256. -/
def State.TemperaturesSafe (s : State) : Prop :=
  (∀ c, InRange (s.temps.get c).cfg.failValue ∧ ∀ v, (s.temps.get c).value = some v → InRange v) ∧
    ∀ z, ((s.zones.get z).cfg.enabled = true →
        weightTotal (s.zones.get z).cfg.sources = 256 ∧ (s.zones.get z).cfg.alpha ≤ 256) ∧
      ((s.zones.get z).cfg.enabled = false → (s.zones.get z).timer = none) ∧
      ∀ e, (s.zones.get z).estimate = some e → InRange e

/-! ## Posture classifier and modes -/

/-- R22 to R24: a line's debounce timer is idle exactly while its debounced state is the interpreted level, and while it
runs its tentative level is the interpreted level. -/
def InputLine.Safe (l : InputLine) : Prop :=
  match l.debouncing with
  | none => l.state = LineState.ofLevel (interpret l.cfg.polarity l.pinHigh)
  | some d => d.tentative = interpret l.cfg.polarity l.pinHigh ∧ l.state ≠ LineState.ofLevel d.tentative

/-- Every input line is safe. -/
def State.InputsSafe (s : State) : Prop := ∀ l, (s.inputs.get l).Safe

/-- R28, R30, R32, R40: the candidate is what the four debounced states give; a running dwell timer has a candidate; the
effective posture is the hint or the committed posture; the column in use is the one that mode and effective posture
name. -/
def State.PostureSafe (s : State) : Prop :=
  s.candidate
      = classify s.inputs.lid.state s.inputs.acin.state s.inputs.motion.state s.inputs.contact.state ∧
    (s.dwell.isSome → s.candidate.isSome) ∧
    s.effective = effectiveOf s.hint s.committed ∧
    s.column = columnOf s.mode s.effective

/-- R37, R38, R113: in SAFE there is no cap and no hint of Port S; a hint of Port S is never less restrictive than the
committed posture. -/
def State.SystemSafe (s : State) : Prop :=
  (s.mode = .safe → (∀ d, (s.caps.get d).capS = none) ∧ heldFromSystem s.hint = false) ∧
    ∀ h, s.hint = some h → h.origin = .system → h.place.lessRestrictive s.committed = false

/-! ## Profile table -/

/-- R44: 1000 ≤ S ≤ B ≤ 150000, W ≤ 64000 and S ≥ Lmin, in every column of every domain. -/
def State.EntriesSafe (s : State) : Prop :=
  ∀ d c,
    let e := (s.profile.get d).get c
    1000 ≤ e.s ∧ e.s ≤ e.b ∧ e.b ≤ 150000 ∧ e.w ≤ 64000 ∧ (s.domains.get d).lmin ≤ e.s

/-! ## Zones -/

/-- R54, R55, R64, R65: what a zone's fields hold in each of its states. -/
def Zone.Safe (z : Zone) : Prop :=
  (z.state = .off ↔ z.cfg.enabled = false) ∧
    z.timer.isSome = z.cfg.enabled ∧
    z.estimate.isSome = z.counts ∧
    (z.counts = false → z.position = 0 ∧ z.held = 0) ∧
    z.position ≤ z.ladder.length ∧
    z.percent = percentAt z.ladder z.position ∧
    z.held ≤ 15

/-- R54, R60, R63, R68: every zone is safe, its degraded and blind flags follow its source channels, and each domain's
thermal percent is the least over the zones that count toward it. -/
def State.ZonesSafe (s : State) : Prop :=
  (∀ z, (s.zones.get z).Safe ∧
      (s.zones.get z).degraded = degradedBy (s.zones.get z).cfg (fun c => (s.temps.get c).state) ∧
      (s.zones.get z).blind = blindBy (s.zones.get z).cfg (fun c => (s.temps.get c).state)) ∧
    ∀ d, s.thermal.get d = thermalPercent s.zones d

/-! ## Accounts, allocation and grants -/

/-- R77 to R79, R81, R82: an account holds this entry, percent and recover percent; its credit lies within its capacity;
it is BURST only with credit, and SUSTAINED only below the threshold or without capacity. -/
def Account.Safe (a : Account) (e : Entry) (percent recover : Nat) : Prop :=
  a.s = e.s ∧ a.b = e.b ∧ a.w = e.w ∧ a.capacity = (e.b - e.s) * e.w ∧ a.credit ≤ a.capacity ∧
    a.percent = percent ∧ a.sEff = e.s * percent / 100 ∧ a.bEff = e.b * percent / 100 ∧
    a.threshold = max 1 (a.capacity * recover / 100) ∧
    (a.state = .burst → 0 < a.credit ∧ a.allowance = a.bEff) ∧
    (a.state = .sustained → (a.capacity = 0 ∨ a.credit < a.threshold) ∧ a.allowance = a.sEff)

/-- Every account is safe for the column in use. -/
def State.AccountsSafe (s : State) : Prop :=
  ∀ d, (s.accounts.get d).Safe ((s.profile.get d).get s.column) (s.thermal.get d) (s.domains.get d).recover

/-- R101, R110, R116: the allocation is what its inputs give, the resolver's copies are the values offered, and each grant
record holds what a resolution finds. -/
def State.GrantsSafe (s : State) : Prop :=
  s.supply = allocationOf s ∧
    ∀ d,
      s.contributors.get d
          = { allowance := (s.accounts.get d).allowance, share := s.supply.share.get d
              capP := (s.caps.get d).capP, capS := (s.caps.get d).capS, percent := s.thermal.get d } ∧
        (s.grants.get d).agrees (resolution (s.contributors.get d) (s.domains.get d).lmin) = true

/-! ## Throttle lines -/

/-- R129 to R132, R135, R137, R138: a line's view, drive, cause, pin and sensed level, its external assertion, and its
window timer, which runs exactly while a mismatch stands and LINE_STUCK is not present. -/
def ThrottleLine.Safe (v : ThrottleLine) (view : SourceView) : Prop :=
  v.view = view ∧ v.drive = driveOf view v.manual ∧ v.cause = causeOf view v.manual ∧
    v.pinOut = pinOutOf v.cfg.output v.cfg.polarity v.drive ∧ outputValid v.cfg = true ∧
    v.sensed = interpret v.cfg.polarity v.pinHigh ∧ v.external = externalOf v.cfg.output v.drive v.sensed ∧
    (v.stuck = true → mismatch v.cfg.output v.drive v.sensed = true) ∧
    (v.window.isSome = (mismatch v.cfg.output v.drive v.sensed && !v.stuck))

/-- Every line is safe against the sources as they stand. -/
def State.LinesSafe (s : State) : Prop := ∀ l, (s.lines.get l).Safe (viewOf s (s.lines.get l).cfg.routing)

/-! ## Fault log and mode -/

/-- The number of subjects of a fault kind (R142). -/
def FaultKind.subjects : FaultKind → Nat
  | .tchFailed => 8
  | .pchFailed => 5
  | .convOverrun => 8
  | .zoneTrip => 4
  | .zoneBlind => 4
  | .excess => 3
  | .lineStuck => 4
  | .supplyTrip => 1

/-- A record's fields are those of its kind (section 9.2, R142). -/
def FaultRecord.Safe (r : FaultRecord) : Prop :=
  r.subject < r.kind.subjects ∧ r.severity = r.kind.severity ∧ r.present.isSome = r.kind.isCondition ∧
    1 ≤ r.count ∧ r.count ≤ 255

/-- R144, R148, R149: no two records of one kind and subject, at most 37 records, the summary is their greatest severity,
and in ACTIVE none is FATAL. -/
def State.LogSafe (s : State) : Prop :=
  (∀ r ∈ s.faults, r.Safe) ∧ (s.faults.map fun r => (r.kind, r.subject)).Nodup ∧ s.faults.length ≤ 37 ∧
    s.severity = summaryOf s.faults ∧ (s.mode = .active → ∀ r ∈ s.faults, r.severity ≠ .fatal)

/-- The log says that a condition is present. -/
def presentIn (log : List FaultRecord) (kind : FaultKind) (subject : Nat) : Prop :=
  ∃ r ∈ log, r.kind = kind ∧ r.subject = subject ∧ r.present = some true

/-- R10, R19, R62, R63, R106, R126, R139: the log says of each condition what its owner's state says. -/
def State.ConditionsSafe (s : State) : Prop :=
  (∀ c, presentIn s.faults .tchFailed c.number ↔ (s.temps.get c).state = .failed) ∧
    (∀ n, presentIn s.faults .pchFailed n.number ↔ (s.powers.get n).state = .failed) ∧
    (∀ z, presentIn s.faults .zoneTrip z.number ↔ (s.zones.get z).state = .tripped) ∧
    (∀ z, presentIn s.faults .zoneBlind z.number ↔ (s.zones.get z).blind = true) ∧
    (∀ d, presentIn s.faults .excess d.number ↔ (s.compliance.get d).state = .excess) ∧
    (∀ l, presentIn s.faults .lineStuck l.number ↔ (s.lines.get l).stuck = true) ∧
    (presentIn s.faults .supplyTrip 0 ↔ s.watch.state = .tripped)

/-- A first occurrence of a condition, by its pair of kind and subject, leaves a record of its severity and value (R144). -/
def FirstRecord (kind : FaultKind) (subject : Nat) (severity : Severity) (value : Option Int) (s t : State) : Prop :=
  (∀ r ∈ s.faults, (r.kind, r.subject) ≠ (kind, subject)) →
    ({ kind := kind, subject := subject, severity := severity, present := some true, count := 1, firstTime := s.uptime
       lastTime := s.uptime, firstValue := value } : FaultRecord) ∈ t.faults

/-! ## Notices and links -/

/-- R159: each attention line is asserted exactly while its port has a pending kind that it does not mask. -/
def State.NoticesSafe (s : State) : Prop :=
  ∀ p, (s.notices.get p).attention = true ↔
    ∃ k, ((s.notices.get p).pending.has k = true) ∧ ((s.notices.get p).mask.has k = false)

/-- A reply frame: 4 to 253 bytes, the length byte counts the body, and the sum is a multiple of 256 (section 11.2). -/
def ReplyFrame (bytes : List Byte) : Prop :=
  4 ≤ bytes.length ∧ bytes.length ≤ 253 ∧ (bytes.getD 1 0).toNat + 3 = bytes.length ∧ byteSum bytes = 0

/-- Every reply slot is empty or holds a reply frame, and every receive buffer is empty (R168, R172). -/
def State.LinksSafe (s : State) : Prop :=
  ∀ p, (s.links.get p).buffer = [] ∧ ∀ bytes, (s.links.get p).slot = some bytes → ReplyFrame bytes

/-! ## Resets and calls -/

/-- A call of a port's own address (R167). -/
def State.call (s : State) (p : Port) : Call := ⟨p, portAddress p s⟩

/-- R7, R128, R167: while RST_N is low every block is as reset leaves it; the free value and the queue are the model's. -/
def State.ResetSafe (s : State) : Prop :=
  s.inReset = true → s = { State.reset with inReset := true, schedule := s.schedule, pending := s.pending }

/-- The call of a bus transaction, none of an event. -/
def callOf : Instr → Option Call
  | .badFrame call _ => some call
  | .unknown call _ _ => some call
  | .replyRead call _ => some call
  | i => (requestParts i).map fun r => r.2.1

/-! ## What a request meets -/

/-- A request passes checks 3 and 4 of R169: its port is listed and the mode is one in which it is taken. -/
def Admitted (kind : Kind) (port : Port) (s : State) : Prop :=
  portListed kind port = true ∧ modeAllows kind port s.mode = true

/-- The body length of a kind; that of SET_LADDER follows its step count (section 11.6, R170). -/
def bodyLength (body : List Byte) : Kind → Nat
  | .identify | .readStatus | .readGrants | .readNotices | .clearFaults | .activate | .deactivate => 0
  | .readDomain | .readZone | .readFaults | .postureHint => 1
  | .readChannel | .clearNotices | .setNoticeMask | .forceLine => 2
  | .setInput | .setRouting | .setCap => 5
  | .setPostureTiming => 6
  | .setPowerChannel => 7
  | .supplyReport => 9
  | .setChannel => 10
  | .setSkinLimits => 11
  | .setProfile => 12
  | .setSupplyConfig => 15
  | .setDomain => 17
  | .setZone => 20
  | .setLadder => 2 + 3 * u8 body 1

/-- The yes/no, code and set fields of a body hold defined values; a step count is at most 8 (R170). -/
def fieldsDefined (body : List Byte) : Kind → Prop
  | .readChannel => u8 body 0 ≤ 1
  | .clearNotices | .setNoticeMask => u16 body 0 < 8192
  | .setChannel => u8 body 1 ≤ 1 ∧ u8 body 2 ≤ 1
  | .setInput => u8 body 1 ≤ 1 ∧ u8 body 4 ≤ 3
  | .setZone => u8 body 1 ≤ 1 ∧ u8 body 12 < 8
  | .setLadder => u8 body 1 ≤ 8
  | .setDomain => u8 body 2 ≤ 1
  | .setRouting => u8 body 1 < 8 ∧ u8 body 2 ≤ 1 ∧ u8 body 3 ≤ 1
  | .postureHint => u8 body 0 ≤ 3 ∨ u8 body 0 = 255
  | .forceLine => u8 body 1 ≤ 1
  | .identify | .readStatus | .readGrants | .readDomain | .readZone | .readFaults | .readNotices | .clearFaults
  | .setPowerChannel | .setPostureTiming | .setProfile | .setSkinLimits | .setSupplyConfig | .supplyReport | .setCap
  | .activate | .deactivate => True

/-- A body has the shape of its kind (R170). -/
def shaped (kind : Kind) (body : List Byte) : Prop :=
  body.length = bodyLength body kind ∧ fieldsDefined body kind

/-- The largest number that the first byte of a body may name, none for a kind whose body names no instance or whose
reads have a rule of their own (section 11.6). -/
def instanceLimit : Kind → Option Nat
  | .setChannel => some 7
  | .setPowerChannel => some 4
  | .setInput | .setZone | .setLadder | .setSkinLimits | .setRouting | .forceLine | .readDomain | .readZone => some 3
  | .setProfile | .setDomain | .setCap => some 2
  | .identify | .readStatus | .readGrants | .readChannel | .readFaults | .readNotices | .clearNotices | .setNoticeMask
  | .clearFaults | .setPostureTiming | .setSupplyConfig | .supplyReport | .postureHint | .activate | .deactivate => none

/-! ## What commands bring -/

/-- t comes from s with the head of the conversion queue taken, where there is one (R5). -/
def TakesHead (s t : State) : Prop :=
  (s.queue = [] → t.queue = [] ∧ t.converter = none) ∧
    ∀ c rest, s.queue = c :: rest →
      t.queue = rest ∧
        t.converter = some
          { channel := c, kind := (s.temps.get c).cfg.kind, offset := (s.temps.get c).cfg.offset, voided := false
            timer := Timer.start (conversionTime (s.temps.get c).cfg.kind) }

/-- The power channel of a controllable domain (00_scope.md section 1.2). -/
def channelOf : DomainId → PowerId
  | .d0 => .pm0
  | .d1 => .pm1
  | .d2 => .pm2

/-- A state of a channel after an invalid sample or a bad conversion, where its state before was not DISABLED (R9, R16). -/
def badState (old : ChannelState) (badRun holdCount : Nat) : ChannelState :=
  if old = .failed ∨ holdCount < badRun then .failed else if old = .starting then .starting else .holding

/-- What a sample arrival at a domain's channel delivers: the quality and the power (R16, R17). -/
def Delivers (d : DomainId) (sample : Option Nat) (quality : Quality) (power : Nat) (s : State) : Prop :=
  let v := s.powers.get (channelOf d)
  let after := badState v.state (min 8 (v.badRun + 1)) v.holdCount
  (∃ p, sample = some p ∧ quality = .valid ∧ power = min p 150000) ∨
    (sample = none ∧ v.state ≠ .disabled ∧ after = .holding ∧ quality = .held ∧ v.value = some power) ∨
    (sample = none ∧ v.state ≠ .disabled ∧ after = .failed ∧ quality = .substitute
      ∧ power = ((s.profile.get d).get s.column).b)

/-- A temperature channel offers this consumer value (R1). -/
def Offers (v : TempChannel) (x : Int) : Prop :=
  ((v.state = .valid ∨ v.state = .holding) ∧ v.value = some x) ∨ (v.state = .failed ∧ x = v.cfg.failValue)

/-- p is the least of 100 and the percents of the zones that count and influence a domain (R68). -/
def LeastPercent (zones : PerZone Zone) (d : DomainId) (p : Nat) : Prop :=
  let toward := fun z => (zones.get z).counts = true ∧ (zones.get z).cfg.influence.get d = true
  p ≤ 100 ∧ (∀ z, toward z → p ≤ (zones.get z).percent) ∧ (p = 100 ∨ ∃ z, toward z ∧ p = (zones.get z).percent)

/-- top is the highest step of a ladder whose enter threshold an estimate reaches, 0 for none (R64). -/
def IsTop (ladder : List LadderStep) (skinLimit estimate : Int) (top : Nat) : Prop :=
  (∀ k step, ladder[k]? = some step → skinLimit - step.offset ≤ estimate → k < top) ∧
    (top = 0 ∨ ∃ step, ladder[top - 1]? = some step ∧ skinLimit - step.offset ≤ estimate)

/-- A zone's record after the trip check and the jump up of a column switch or re-selection (R61, R66). -/
def Rechecked (v : Zone) (skinLimit : Int) (w : Zone) : Prop :=
  ∀ estimate top, v.estimate = some estimate → IsTop v.ladder skinLimit estimate top →
    let point := skinLimit + v.cfg.tripMargin
    let state : ZoneState :=
      if v.state = .active ∧ point ≤ estimate then .tripped
      else if v.state = .tripped ∧ estimate < point - v.cfg.hysteresis then .active else v.state
    w = if v.position < top then
        { v with
          state := state, position := top, held := 0
          percent := (v.ladder[top - 1]?.map (·.percent)).getD 100 }
      else { v with state := state }

/-- The state rule of R81. -/
def ruledState (old : AccountState) (capacity credit threshold : Nat) : AccountState :=
  if capacity = 0 then .sustained
  else if old = .burst then (if credit = 0 then .sustained else .burst)
  else if threshold ≤ credit then .burst else .sustained

/-- A notice kind is pending on both ports (R158). -/
def Raised (k : NoticeKind) (t : State) : Prop := ∀ p, (t.notices.get p).pending.has k = true

/-- What an event that takes the mode to SAFE has done to mode, column in use, caps and hint slot (R37, R113, R149, R153,
R154). -/
def FallsSafe (s t : State) : Prop :=
  t.mode = .safe ∧
    (s.mode = .active →
      t.column = .safe ∧ (∀ d, t.caps.get d = { s.caps.get d with capS := none }) ∧
        (heldFromSystem s.hint = true → t.hint = none ∧ t.effective = s.committed ∧ Raised .hintDropped t) ∧
        (heldFromSystem s.hint = false → t.hint = s.hint ∧ t.effective = s.effective) ∧
        Raised .mode t) ∧
    (s.mode = .safe →
      t.column = s.column ∧ t.caps = s.caps ∧ t.hint = s.hint ∧ t.effective = s.effective)

/-! ## What commands wait for, and what they raise -/

/-- The timer whose expiry a command is, none where it is no expiry; the timer itself is none where it is idle (log 3). -/
def expiryTimer (s : State) : Instr → Option (Option Timer)
  | .intervalTimerExpiry c => some (s.temps.get c).timer
  | .conversionEnd _ => some (s.converter.map (·.timer))
  | .sampleArrival n _ => some (some (s.powers.get n).timer)
  | .debounceExpiry l => some ((s.inputs.get l).debouncing.map (·.timer))
  | .dwellExpiry => some s.dwell
  | .zoneUpdate z => some (s.zones.get z).timer
  | .settleTimerExpiry d => some (s.compliance.get d).settle
  | .tripTimerExpiry =>
    match s.watch.state with
    | .timing w => some (some w)
    | .clear => some none
    | .tripped => some none
  | .readbackWindowExpiry l => some (s.lines.get l).window
  | _ => none

/-- A command is a reset. -/
def IsReset (c : Instr) : Prop := ∃ edge pins lines, c = .reset edge pins lines

/-- The kinds whose occurrences are FATAL (R153). -/
def FaultKind.fatal (k : FaultKind) : Prop := k = .zoneBlind ∨ k = .lineStuck ∨ k = .supplyTrip

end Sys2Proof.Machine
end

