-- ==== Sys2Proof/WellFormed.lean ====
section
/-!
DEFINITION. Which commands the outside world can make: a write transaction is one command only.
-/

namespace Sys2Proof

/-- A BAD_FRAME carries a malformed write, an UNKNOWN a kind outside the catalogue, and a frame's body at most 60 bytes
(R168, R169). Every other operand may take any value. -/
def Instr.wellFormed (i : Instr) : Bool :=
  match i with
  | .badFrame _ bytes => !frameWellFormed bytes
  | .unknown _ kind body => (kindOfCode kind).isNone && decide (body.length ≤ Config.requestBodyMax)
  | i =>
    match requestParts i with
    | some r => decide (r.2.2.length ≤ Config.requestBodyMax)
    | none => true

end Sys2Proof
end

