-- ==== Sys2Proof/Certificates/Slice0/Obligations.lean ====
section
/-!
DEFINITION. The statements for the provers, each with the rules of spec/ that it formalises. A command's statement says
that it answers a next state, what that state holds, and what it leaves as it was.
-/

open Sys2Proof Sys2Proof.Machine

/-! ## Steps -/

/-- A step takes the command at the front of the queue and answers what its meaning answers (log 1). -/
def Obligations.StepRunsFrontCommand : Prop :=
  ∀ (s : State) (c : Instr) (rest : List Instr), s.pending = c :: rest →
    step s = exec c { s with pending := rest }

/-- With no command waiting, and outside a reset, one millisecond passes: uptime goes on and wraps to 0 after 4,294,967,294,
every running timer goes on, and nothing else changes (00_scope.md section 4.1; the tick is the model's choice, log 2). An
expiry whose timer is idle does not happen, and one whose timer runs happens as the rest of its time has passed (log 3). -/
def Obligations.TimePassesWhileNoCommandWaits : Prop :=
  (∀ s : State, s.inReset = false → s.pending = [] →
    step s = .next
      { s with
        uptime := if s.uptime % 4294967295 = 4294967294 then 0 else s.uptime % 4294967295 + 1
        temps := s.temps.map fun c => { c with timer := c.timer.map fun t => ⟨t.elapsed + 1, t.duration⟩ }
        converter := s.converter.map fun j => { j with timer := ⟨j.timer.elapsed + 1, j.timer.duration⟩ }
        powers := s.powers.map fun c => { c with timer := ⟨c.timer.elapsed + 1, c.timer.duration⟩ }
        inputs := s.inputs.map fun l =>
          { l with
            debouncing := l.debouncing.map fun d => { d with timer := ⟨d.timer.elapsed + 1, d.timer.duration⟩ } }
        dwell := s.dwell.map fun t => ⟨t.elapsed + 1, t.duration⟩
        zones := s.zones.map fun z => { z with timer := z.timer.map fun t => ⟨t.elapsed + 1, t.duration⟩ }
        compliance := s.compliance.map fun c => { c with settle := c.settle.map fun t => ⟨t.elapsed + 1, t.duration⟩ }
        watch :=
          { s.watch with
            state := match s.watch.state with
              | .timing t => .timing ⟨t.elapsed + 1, t.duration⟩
              | .clear => .clear
              | .tripped => .tripped }
        lines := s.lines.map fun l => { l with window := l.window.map fun t => ⟨t.elapsed + 1, t.duration⟩ } }) ∧
  (∀ (c : Instr) (s : State) (timer : Option Timer), s.inReset = false → expiryTimer s c = some timer →
    (timer = none → exec c s = .next s) ∧
      ∀ w, timer = some w → w.due = false → exec c s = exec c (elapse w.remaining s))

/-! ## Frames of the links (chapter 11) -/

/-- The first 63 data bytes of a write are acknowledged and stored in the receive buffer, a later one neither, and the buffer
is found to hold a well-formed frame exactly where the four tests of R168 hold; decoding makes the same test. Any command
whose bytes fail it is answered BAD_FRAME in the port's reply slot, and a kind outside the catalogue UNKNOWN, with the kind
echoed where it can be; the receive buffer is emptied, and nothing else is done (R168, R169, R171, R172; the kind byte 0x80
of BAD_FRAME is log 9, the count of refused bytes log 10). A BAD_FRAME of a well-formed frame and an UNKNOWN of a kind of
the catalogue do not happen (log 19). -/
def Obligations.MalformedWritesAreAnsweredOnly : Prop :=
  let framed := fun bytes : List Byte => 3 ≤ bytes.length ∧ bytes.length ≤ 63 ∧ (bytes.getD 1 0).toNat ≤ 60 ∧
    bytes.length = (bytes.getD 1 0).toNat + 3 ∧ (bytes.map BitVec.toNat).sum % 256 = 0
  (∀ (v : Link) (bytes : List Byte),
    v.receiveAll bytes
        = { buffer := bytes.take 63, refused := bytes.length - 63, slot := v.slot, sent := v.sent } ∧
      (∀ k, k < bytes.length → (v.byteAcknowledged bytes k = true ↔ k < 63)) ∧
      ((v.receiveAll bytes).holdsFrame = true ↔ framed bytes)) ∧
  (∀ (call : Call) (bytes : List Byte), decodeWrite call bytes = .badFrame call bytes ↔ ¬framed bytes) ∧
  (∀ (c : Instr) (port : Port) (bytes : List Byte) (s : State), s.inReset = false →
    encodeWrite c = some (s.call port, bytes) → ¬framed bytes →
    exec c s = .next
      { s with
        links := s.links.set port
          { s.links.get port with
            buffer := [], refused := bytes.length - 63, slot := some [0x80, 0x01, 0x02, 0x7D] } }) ∧
  (∀ (port : Port) (kind : Byte) (body : List Byte) (s : State), s.inReset = false → body.length ≤ 60 →
    (∀ k, kindCode k ≠ kind) →
    exec (.unknown (s.call port) kind body) s = .next
      { s with
        links := s.links.set port
          { s.links.get port with
            buffer := [], refused := 0
            slot := some
              (if kind.toNat < 128 then [kind + 0x80, 0x01, 0x03, 0x7C - kind] else [0x80, 0x01, 0x03, 0x7C]) } }) ∧
  (∀ (call : Call) (bytes : List Byte) (s : State), framed bytes → exec (.badFrame call bytes) s = .next s) ∧
  ∀ (call : Call) (k : Kind) (body : List Byte) (s : State), body.length ≤ 60 →
    exec (.unknown call (kindCode k) body) s = .next s

/-- Decoding the write transaction of a well-formed command gives the command back, whatever its call and body: no byte of a
frame is dropped; and every write transaction makes a well-formed command, whose own write transaction is that one: no two
transactions make one command (sections 11.2 and 11.6). -/
def Obligations.DecodeAndEncodeAgree : Prop :=
  (∀ (i : Instr) (call : Call) (bytes : List Byte),
    i.wellFormed = true → encodeWrite i = some (call, bytes) → decodeWrite call bytes = i) ∧
  (∀ (call : Call) (bytes : List Byte),
    (decodeWrite call bytes).wellFormed = true ∧ encodeWrite (decodeWrite call bytes) = some (call, bytes))

/-- A read transaction empties the port's reply slot and sends its frame, or the NONE frame where it was empty, and 0xFF
after the last byte (R172; the sent bytes are the model's own field, log 10). -/
def Obligations.ReplyReadSendsAndEmptiesTheSlot : Prop :=
  ∀ (port : Port) (clocked : Nat) (s : State), s.inReset = false →
    ∃ sent : List Byte,
      exec (.replyRead (s.call port) clocked) s = .next
          { s with links := s.links.set port { s.links.get port with slot := none, sent := sent } } ∧
        sent.length = clocked ∧
        ∀ k, k < clocked →
          sent.getD k 0 = ((s.links.get port).slot.getD [0x80, 0x01, 0x07, 0x78]).getD k 0xFF

/-- A request of a kind that is not listed for Port S is DENIED there, a request in a mode other than the one that the
catalogue names is answered STATE, and a body that has not its kind's shape is INVALID, in this order; each does nothing
but place its reply of body length 1 (checks 3 to 5 of R169, R170, R171; a body above 60 bytes makes no frame, R168). -/
def Obligations.RefusedRequestsOnlyAnswer : Prop :=
  ∀ (kind : Kind) (port : Port) (body : List Byte) (s : State), s.inReset = false → body.length ≤ 60 →
    let refused := fun status : Byte =>
      exec (requestOf kind (s.call port) body) s
        = .next (place port [kindCode kind + 0x80, 0x01, status, 0x7F - kindCode kind - status] s)
    let denied := port = .system ∧
      kind ∈ [.clearFaults, .setChannel, .setPowerChannel, .setInput, .setPostureTiming, .setZone, .setLadder,
        .setProfile, .setSkinLimits, .setDomain, .setRouting, .setSupplyConfig, .supplyReport, .forceLine, .activate,
        .deactivate]
    let wrongMode := (s.mode = .active ∧ kind ∈ [.setInput, .setZone, .setDomain, .setRouting, .setSupplyConfig]) ∨
      (s.mode = .safe ∧ port = .system ∧ kind ∈ [.setCap, .postureHint])
    (denied → refused 4) ∧ (¬denied → wrongMode → refused 5) ∧
      (¬denied → ¬wrongMode → ¬shaped kind body → refused 6)

/-- A request that passes checks 3 to 5 of R169 and names an instance, a column or a source channel that the part has not is
INVALID and does nothing but place its reply (R11, R20, R26, R46, R50, R70, R73, R111, R114, R134, R135, R164, R165; for
SET_CHANNEL in either mode, log 13). -/
def Obligations.UnknownInstancesAreInvalid : Prop :=
  ∀ (kind : Kind) (port : Port) (body : List Byte) (s : State), s.inReset = false →
    Admitted kind port s → shaped kind body →
    ((∃ m, instanceLimit kind = some m ∧ m < u8 body 0) ∨ (kind = .setProfile ∧ 4 < u8 body 1) ∨
      (kind = .setZone ∧ ∃ k, k < u8 body 2 ∧ k < 3 ∧ 7 < u8 body (3 + 3 * k))) →
    exec (requestOf kind (s.call port) body) s
      = .next (place port [kindCode kind + 0x80, 0x01, 0x06, 0x79 - kindCode kind] s)

/-! ## Reads (chapters 10 and 11) -/

/-- IDENTIFY replies with its five values and changes nothing else (R174). -/
def Obligations.IdentifyReportsThePart : Prop :=
  ∀ (port : Port) (s : State), s.inReset = false →
    exec (.identify (s.call port) []) s = .next
      (place port
        (frame 0x81
          [0, 0x43, 0x04, 0x32, 1, (match port with
            | .platform => 0x50
            | .system => 0x53), if s.adrsel then 1 else 0]) s)

/-- READ_STATUS replies with the snapshot of R163 in the layout of section 11.9, and changes nothing else. -/
def Obligations.ReadStatusReportsTheSnapshot : Prop :=
  ∀ (port : Port) (s : State), s.inReset = false →
    ∃ f : List Byte,
      exec (.readStatus (s.call port) []) s = .next (place port (frame 0x82 (0 :: f)) s) ∧ f.length = 61 ∧
        u8 f 0 = s.mode.code ∧ u8 f 1 = s.committed.code ∧
        u8 f 2 = (match s.candidate with
          | some c => c.posture.code
          | none => 255) ∧
        (u8 f 3, u8 f 4) = (match s.hint with
          | some h => (h.place.posture.code, h.origin.number)
          | none => (255, 255)) ∧
        u8 f 5 = s.effective.code ∧
        (∀ l : InputId, u8 f (6 + l.number) = (s.inputs.get l).state.code) ∧
        u8 f 10 = s.column.number ∧
        (∀ z : ZoneId,
          u8 f (11 + 5 * z.number) = (s.zones.get z).state.code ∧
          u16 f (12 + 5 * z.number) = (match (s.zones.get z).estimate with
            | some e => (e % 65536).toNat
            | none => 0x8000) ∧
          u8 f (14 + 5 * z.number) = (s.zones.get z).position % 256 ∧
          u8 f (15 + 5 * z.number) = (s.zones.get z).percent % 256) ∧
        (∀ l : LineId,
          u8 f (31 + 4 * l.number) = (s.lines.get l).drive.toNat ∧
          u8 f (32 + 4 * l.number) = (s.lines.get l).sensed.toNat ∧
          u8 f (33 + 4 * l.number) = (s.lines.get l).cause.code ∧
          u8 f (34 + 4 * l.number) = (s.lines.get l).external.toNat) ∧
        u8 f 47 = s.supply.source.code ∧ u32 f 48 = s.supply.available % 4294967296 ∧
        u32 f 52 = s.supply.pool % 4294967296 ∧ u8 f 56 = s.severity.code ∧ u32 f 57 = s.uptime % 4294967296

/-- READ_GRANTS replies with the three grant records, D0 first; READ_DOMAIN with the five parts of a controllable domain, with
the REST power and absent markers for D3, and INVALID above 3. Neither changes anything else (R91, R127, R164). -/
def Obligations.ReadGrantsAndReadDomainReport : Prop :=
  (∀ (port : Port) (s : State), s.inReset = false →
    ∃ f : List Byte,
      exec (.readGrants (s.call port) []) s = .next (place port (frame 0x83 (0 :: f)) s) ∧ f.length = 39 ∧
        ∀ d : DomainId,
          let g := s.grants.get d
          let at_ := 13 * d.number
          u8 f at_ = d.number ∧ u32 f (at_ + 1) = g.limit % 4294967296 ∧ u8 f (at_ + 5) = g.owner.code ∧
            u8 f (at_ + 6) = g.floorApplied.toNat ∧ u16 f (at_ + 7) = g.changeCount % 65536 ∧
            u32 f (at_ + 9) = g.changedAt % 4294967296) ∧
  ((∀ (port : Port) (d : DomainId) (s : State), s.inReset = false →
    ∃ f : List Byte,
      exec (.readDomain (s.call port) [BitVec.ofNat 8 d.number]) s = .next (place port (frame 0x84 (0 :: f)) s) ∧
        f.length = 129 ∧ u8 f 0 = d.number ∧
        (∀ c : Column,
          let e := (s.profile.get d).get c
          u32 f (1 + 10 * c.number) = e.s % 4294967296 ∧ u32 f (5 + 10 * c.number) = e.b % 4294967296 ∧
            u16 f (9 + 10 * c.number) = e.w % 65536) ∧
        (let a := s.accounts.get d;
          u8 f 51 = a.state.code ∧ u32 f 52 = a.credit / 1000 % 4294967296 ∧
            u32 f 56 = a.capacity / 1000 % 4294967296 ∧ u8 f 60 = a.percent % 256 ∧
            u32 f 61 = a.sEff % 4294967296 ∧ u32 f 65 = a.bEff % 4294967296 ∧
            u32 f 69 = a.allowance % 4294967296 ∧ u8 f 73 = (s.domains.get d).recover % 256) ∧
        (let r := s.domains.get d;
          u8 f 74 = r.arbitrated.toNat ∧ u8 f 75 = r.priority % 256 ∧ u32 f 76 = r.floor % 4294967296 ∧
            u32 f 80 = s.supply.demand.get d % 4294967296 ∧
            u32 f 84 = (s.supply.share.get d).getD 4294967295 % 4294967296) ∧
        (let g := s.grants.get d;
          let c := s.contributors.get d;
          u8 f 88 = d.number ∧ u32 f 89 = g.limit % 4294967296 ∧ u8 f 93 = g.owner.code ∧
            u8 f 94 = g.floorApplied.toNat ∧ u16 f 95 = g.changeCount % 65536 ∧
            u32 f 97 = g.changedAt % 4294967296 ∧ u32 f 101 = c.allowance % 4294967296 ∧
            u32 f 105 = c.share.getD 4294967295 % 4294967296 ∧ u32 f 109 = c.capP.getD 4294967295 % 4294967296 ∧
            u32 f 113 = c.capS.getD 4294967295 % 4294967296 ∧ u32 f 117 = (s.domains.get d).lmin % 4294967296) ∧
        (let r := s.domains.get d;
          let c := s.compliance.get d;
          u8 f 121 = r.tolerance % 256 ∧ u8 f 122 = r.aboveN % 256 ∧ u8 f 123 = r.belowM % 256 ∧
            u16 f 124 = r.settleTime % 65536 ∧ u8 f 126 = c.state.code ∧ u8 f 127 = c.above % 256 ∧
            u8 f 128 = c.below % 256)) ∧
    (∀ (port : Port) (s : State), s.inReset = false →
      ∃ f : List Byte,
        exec (.readDomain (s.call port) [3]) s = .next (place port (frame 0x84 (0 :: f)) s) ∧ f.length = 129 ∧
          u8 f 0 = 3 ∧
          u32 f 80 = restValue s.powers.pm3 s.restFail % 4294967296 ∧
          ∀ k, k < 129 → k ≠ 0 → (k < 80 ∨ 84 ≤ k) → f.getD k 0 = 0xFF) ∧
    ∀ (port : Port) (b : Byte) (s : State), s.inReset = false → 3 < b.toNat →
      exec (.readDomain (s.call port) [b]) s = .next (place port [0x84, 0x01, 0x06, 0x75] s))

/-- READ_ZONE replies with a zone's record, ladder and skin limits, and READ_CHANNEL with a channel's fields, not its consumer
value; a number that names nothing is INVALID. Neither changes anything else (R165). -/
def Obligations.ReadZoneAndReadChannelReport : Prop :=
  ((∀ (port : Port) (z : ZoneId) (s : State), s.inReset = false →
    ∃ f : List Byte,
      let v := s.zones.get z
      exec (.readZone (s.call port) [BitVec.ofNat 8 z.number]) s = .next (place port (frame 0x85 (0 :: f)) s) ∧
        f.length = 62 ∧ u8 f 0 = z.number ∧ u8 f 1 = v.state.code ∧
        u16 f 2 = (match v.estimate with
          | some e => (e % 65536).toNat
          | none => 0x8000) ∧
        u8 f 4 = v.position % 256 ∧ u8 f 5 = v.percent % 256 ∧ u8 f 6 = v.held % 256 ∧ u8 f 7 = v.degraded.toNat ∧
        u8 f 8 = v.cfg.enabled.toNat ∧ u8 f 9 = v.cfg.sources.length % 256 ∧
        (∀ k, k < 3 →
          (u8 f (10 + 3 * k), u16 f (11 + 3 * k)) = (match v.cfg.sources[k]? with
            | some src => (src.channel.number, src.weight % 65536)
            | none => (0xFF, 0xFFFF))) ∧
        u8 f 19 = v.cfg.influence.d0.toNat + 2 * v.cfg.influence.d1.toNat + 4 * v.cfg.influence.d2.toNat ∧
        u16 f 20 = v.cfg.alpha % 65536 ∧ u16 f 22 = v.cfg.interval % 65536 ∧ u8 f 24 = v.cfg.hysteresis % 256 ∧
        u8 f 25 = v.cfg.descentDwell % 256 ∧ u8 f 26 = v.cfg.tripMargin % 256 ∧ u8 f 27 = v.ladder.length % 256 ∧
        (∀ k, k < 8 →
          (u16 f (28 + 3 * k), u8 f (30 + 3 * k)) = (match v.ladder[k]? with
            | some step => (step.offset % 65536, step.percent % 256)
            | none => (0xFFFF, 0xFF))) ∧
        ∀ c : Column, u16 f (52 + 2 * c.number) = (((s.skin.get z).get c) % 65536).toNat) ∧
    ∀ (port : Port) (b : Byte) (s : State), s.inReset = false → 3 < b.toNat →
      exec (.readZone (s.call port) [b]) s = .next (place port [0x85, 0x01, 0x06, 0x74] s)) ∧
  ((∀ (port : Port) (c : TempId) (s : State), s.inReset = false →
    ∃ f : List Byte,
      let v := s.temps.get c
      exec (.readChannel (s.call port) [0, BitVec.ofNat 8 c.number]) s = .next (place port (frame 0x86 (0 :: f)) s) ∧
        f.length = 20 ∧ u8 f 0 = 0 ∧ u8 f 1 = c.number ∧ u8 f 2 = v.cfg.enabled.toNat ∧ u8 f 3 = v.cfg.kind.code ∧
        u16 f 4 = v.cfg.interval % 65536 ∧ u16 f 6 = (v.cfg.offset % 65536).toNat ∧
        u8 f 8 = v.cfg.holdCount % 256 ∧ u16 f 9 = (v.cfg.failValue % 65536).toNat ∧ u8 f 11 = v.state.code ∧
        u16 f 12 = (match v.value with
          | some t => (t % 65536).toNat
          | none => 0x8000) ∧
        u8 f 14 = v.badRun % 256 ∧
        u8 f 15 = (match v.firstBad with
          | some b => b.code
          | none => 255) ∧
        u32 f 16 = v.lastGood.getD 4294967295 % 4294967296) ∧
    (∀ (port : Port) (n : PowerId) (s : State), s.inReset = false →
      ∃ f : List Byte,
        let v := s.powers.get n
        exec (.readChannel (s.call port) [1, BitVec.ofNat 8 n.number]) s = .next (place port (frame 0x86 (0 :: f)) s) ∧
          f.length = 14 ∧ u8 f 0 = 1 ∧ u8 f 1 = n.number ∧ u8 f 2 = v.interval % 256 ∧ u8 f 3 = v.holdCount % 256 ∧
          u32 f 4 = (if n = .pm3 then s.restFail % 4294967296 else 4294967295) ∧ u8 f 8 = v.state.code ∧
          u32 f 9 = v.value.getD 4294967295 % 4294967296 ∧ u8 f 13 = v.badRun % 256) ∧
    ∀ (port : Port) (a b : Byte) (s : State), s.inReset = false →
      (1 < a.toNat → exec (.readChannel (s.call port) [a, b]) s = .next (place port [0x86, 0x01, 0x06, 0x73] s)) ∧
      (7 < b.toNat → exec (.readChannel (s.call port) [0, b]) s = .next (place port [0x86, 0x01, 0x06, 0x73] s)) ∧
        (4 < b.toNat → exec (.readChannel (s.call port) [1, b]) s = .next (place port [0x86, 0x01, 0x06, 0x73] s)))

/-- READ_FAULTS replies with the record count and up to four records in log order from the start index, and changes nothing
else (R166). -/
def Obligations.ReadFaultsReportsTheLog : Prop :=
  ∀ (port : Port) (start : Byte) (s : State), s.inReset = false →
    ∃ f : List Byte,
      let n := min 4 (s.faults.length - start.toNat)
      exec (.readFaults (s.call port) [start]) s = .next (place port (frame 0x87 (0 :: f)) s) ∧ f.length = 2 + 17 * n ∧
        u8 f 0 = s.faults.length % 256 ∧ u8 f 1 = n ∧
        ∀ k r, k < n → s.faults[start.toNat + k]? = some r →
          let at_ := 2 + 17 * k
          u8 f at_ = r.kind.code ∧ u8 f (at_ + 1) = r.subject % 256 ∧ u8 f (at_ + 2) = r.severity.code ∧
            u8 f (at_ + 3) = (match r.present with
              | some b => b.toNat
              | none => 255) ∧
            u8 f (at_ + 4) = r.count % 256 ∧ u32 f (at_ + 5) = r.firstTime % 4294967296 ∧
            u32 f (at_ + 9) = r.lastTime % 4294967296 ∧
            u32 f (at_ + 13) = (match r.firstValue with
              | some v => (v % 4294967296).toNat
              | none => 0x80000000)

/-! ## Notice requests (chapter 10) -/

/-- READ_NOTICES reports the port's two sets; CLEAR_NOTICES removes the kinds that it names and reports the set before;
SET_NOTICE_MASK replaces the mask set. The attention line follows at once, and the other port is untouched (R159 to
R162). -/
def Obligations.NoticeRequestsServeTheirPort : Prop :=
  ∀ (port : Port) (s : State), s.inReset = false →
    let n := s.notices.get port
    let bytes := fun set : NoticeSet => [BitVec.ofNat 8 set.toNat, BitVec.ofNat 8 (set.toNat / 256)]
    exec (.readNotices (s.call port) []) s = .next (place port (frame 0x88 (0 :: bytes n.pending ++ bytes n.mask)) s) ∧
      ∀ lo hi : Byte, hi.toNat < 32 →
        let named : NoticeSet := BitVec.ofNat 13 (lo.toNat + 256 * hi.toNat)
        exec (.clearNotices (s.call port) [lo, hi]) s = .next
            (place port (frame 0x90 (0 :: bytes n.pending))
              { s with
                notices := s.notices.set port
                  { pending := n.pending &&& ~~~named, mask := n.mask
                    attention := decide (n.pending &&& ~~~named &&& ~~~n.mask ≠ 0) } }) ∧
          exec (.setNoticeMask (s.call port) [lo, hi]) s = .next
            (place port (frame 0x91 [0, lo, hi])
              { s with
                notices := s.notices.set port
                  { pending := n.pending, mask := named, attention := decide (n.pending &&& ~~~named ≠ 0) } })

/-! ## Sensing (chapter 1) -/

/-- At its interval timer's expiry a channel restarts the timer and requests a conversion: it overruns while it waits or is
being converted, joins the tail while the converter is busy with another, and begins at once while the converter is idle
(R2, R4, R5). -/
def Obligations.IntervalExpiryRequestsAConversion : Prop :=
  ∀ (c : TempId) (w : Timer) (s : State), s.inReset = false →
    s.QueueSafe → (s.temps.get c).timer = some w → w.due = true →
    let v := s.temps.get c
    let e := exec (.intervalTimerExpiry c) s
    let r : State := { s with temps := s.temps.set c { v with timer := some (Timer.start v.cfg.interval) } }
    (c ∈ s.queue ∨ (∃ j, s.converter = some j ∧ j.channel = c) → e = .next (occur .convOverrun c.number none r)) ∧
      (∀ j, c ∉ s.queue → s.converter = some j → j.channel ≠ c → e = .next { r with queue := s.queue ++ [c] }) ∧
      (s.converter = none →
        e = .next
          { r with
            converter := some
              { channel := c, kind := v.cfg.kind, offset := v.cfg.offset, voided := false
                timer := Timer.start (match v.cfg.kind with
                  | .diode => 3
                  | .thermistor => 1) } })

/-- At the end of a conversion the converter takes the next head. A reading makes its channel good, with the reading plus the
offset clamped to −400 … 1500; an open or shorted pair, or a result above 1500 or below −400 before the offset, makes it
bad; the outcome of a voided conversion is discarded. A first TCH_FAILED of the channel carries its first bad indication.
Where the channel neither enters nor leaves FAILED nothing else changes (R5, R6, R8 to R10). -/
def Obligations.ConversionEndsReachTheirChannel : Prop :=
  (∀ (j : Conversion) (x : Int) (s : State), s.inReset = false →
    s.converter = some j → j.timer.due = true → j.voided = false → -400 ≤ x → x ≤ 1500 →
    let v := s.temps.get j.channel
    ∃ t, exec (.conversionEnd (.degrees x)) s = .next t ∧ TakesHead s t ∧
      t.temps = s.temps.set j.channel
        { v with
          value := some (max (-400) (min 1500 (x + j.offset))), state := .valid, badRun := 0, firstBad := none
          lastGood := some s.uptime } ∧
      (v.state ≠ .failed → { t with temps := s.temps, queue := s.queue, converter := s.converter } = s) ∧
      { t with temps := s.temps, queue := s.queue, converter := s.converter }.withoutEvent = s.withoutEvent) ∧
  (∀ (j : Conversion) (result : RawResult) (indication : BadIndication) (s : State), s.inReset = false →
    s.converter = some j → j.timer.due = true → j.voided = false → (s.temps.get j.channel).state ≠ .disabled →
    ((result = .openPair ∧ indication = .openPair) ∨ (result = .shortPair ∧ indication = .shortPair) ∨
      (∃ x, result = .degrees x ∧ 1500 < x ∧ indication = .high) ∨
      (∃ x, result = .degrees x ∧ x < -400 ∧ indication = .low)) →
    let v := s.temps.get j.channel
    let run := min 8 (v.badRun + 1)
    let state := badState v.state run v.cfg.holdCount
    let first := if v.badRun = 0 then some indication else v.firstBad
    ∃ t, exec (.conversionEnd result) s = .next t ∧ TakesHead s t ∧
      t.temps = s.temps.set j.channel
        { v with badRun := run, firstBad := first, state := state } ∧
      (v.state ≠ .failed → state = .failed →
        FirstRecord .tchFailed j.channel.number .warning
          (first.map fun b => match b with
            | .openPair => 0
            | .shortPair => 1
            | .high => 2
            | .low => 3) s t) ∧
      (v.state = .failed ∨ state ≠ .failed →
        { t with temps := s.temps, queue := s.queue, converter := s.converter } = s) ∧
      { t with temps := s.temps, queue := s.queue, converter := s.converter }.withoutEvent = s.withoutEvent) ∧
  (∀ (j : Conversion) (result : RawResult) (s : State), s.inReset = false →
    s.converter = some j → j.timer.due = true → j.voided = true →
    ∃ t, exec (.conversionEnd result) s = .next t ∧ TakesHead s t ∧
      { t with queue := s.queue, converter := s.converter } = s)

/-- SET_CHANNEL on a channel that exists: in ACTIVE a change of enabled or kind is answered STATE, a value out of range or
disabling a source of an enabled zone is INVALID, and otherwise the interval is clamped and the channel stays as it is,
is stored, enabled, disabled or restarted (R11 to R14). Fields are compared after the adjustment, and an adjusted request
that changes none is CLAMPED: the model's choice (log 11). -/
def Obligations.SetChannelConfiguresTheChannel : Prop :=
  ∀ (body : List Byte) (r : ChannelRequest) (c : TempId) (s : State), s.inReset = false →
    shapeSetChannel body = some r → r.channel = c.number →
    let v := s.temps.get c
    let e := exec (.setChannel (s.call .platform) body) s
    let interval := max 10 (min 2550 (10 * (r.cfg.interval / 10)))
    let cfg := { r.cfg with interval := interval }
    let barred := s.mode = .active ∧ (cfg.enabled ≠ v.cfg.enabled ∨ cfg.kind ≠ v.cfg.kind)
    let invalid := cfg.offset < -100 ∨ 100 < cfg.offset ∨ 7 < cfg.holdCount ∨ cfg.failValue < -400 ∨
      1500 < cfg.failValue ∨ (v.cfg.enabled = true ∧ cfg.enabled = false ∧
        ∃ z, (s.zones.get z).cfg.enabled = true ∧ ∃ src ∈ (s.zones.get z).cfg.sources, src.channel = c)
    (barred → e = .next (place .platform [0xA0, 0x01, 0x05, 0x5A] s)) ∧
      (¬barred → invalid → e = .next (place .platform [0xA0, 0x01, 0x06, 0x59] s)) ∧
      (¬barred → ¬invalid →
        ∃ t, e = .next
            (place .platform (frame 0xA0 ((if interval = r.cfg.interval then 0 else 1) :: leBytes 2 interval)) t) ∧
          (cfg = v.cfg → t = s) ∧
          (cfg ≠ v.cfg → v.cfg.enabled = false → cfg.enabled = false →
            t = { s with temps := s.temps.set c { v with cfg := cfg } }) ∧
          (v.cfg.enabled = false → cfg.enabled = true →
            t = { s with
              temps := s.temps.set c
                { cfg := cfg, state := .starting, value := none, badRun := 0, firstBad := none, lastGood := none
                  timer := some (Timer.start interval) } }) ∧
          (cfg ≠ v.cfg → v.cfg.enabled = true →
            t.converter = (s.converter.map fun j => if j.channel = c then { j with voided := true } else j) ∧
              t.queue = (if cfg.enabled then s.queue else s.queue.filter fun q => q ≠ c) ∧
              t.temps = s.temps.set c
                (if cfg.enabled = false then
                  { cfg := cfg, state := .disabled, value := none, badRun := 0, firstBad := none, lastGood := none
                    timer := none }
                else if cfg.kind = v.cfg.kind then { v with cfg := cfg, timer := some (Timer.start interval) }
                else
                  { cfg := cfg, state := .starting, value := none, badRun := 0, firstBad := none, lastGood := none
                    timer := some (Timer.start interval) }) ∧
              (v.state ≠ .failed → { t with temps := s.temps, queue := s.queue, converter := s.converter } = s) ∧
              { t with temps := s.temps, queue := s.queue, converter := s.converter }.withoutEvent = s.withoutEvent))

/-- A sample arrival updates its power channel and restarts the sample timer; a sample that leaves the channel STARTING
does nothing else, and no arrival reaches beyond the limit chain, the compliance, the watch, the lines and the log (R15
to R17). -/
def Obligations.SampleUpdatesItsChannel : Prop :=
  ∀ (n : PowerId) (sample : Option Nat) (s : State), s.inReset = false →
    (s.powers.get n).timer.due = true → (s.powers.get n).state ≠ .disabled →
    let v := s.powers.get n
    let run := min 8 (v.badRun + 1)
    let state := badState v.state run v.holdCount
    let after := match sample with
      | some p =>
        { v with value := some (min p 150000), state := .valid, badRun := 0, timer := Timer.start v.interval }
      | none => { v with badRun := run, state := state, timer := Timer.start v.interval }
    ∃ t, exec (.sampleArrival n sample) s = .next t ∧ t.powers = s.powers.set n after ∧
      (sample = none → state = .starting → t = { s with powers := s.powers.set n after }) ∧
      (n ≠ .pm4 → t.watch = s.watch) ∧ t.thermal = s.thermal ∧
      { t with powers := s.powers, watch := s.watch, severity := s.severity }.withoutChain = s.withoutChain

/-- SET_POWER_CHANNEL: a channel number above 4, a hold count above 7, or a fail value of PM3 above 150000, is INVALID;
otherwise the interval is clamped to 1 … 16, a changed interval restarts the sample timer, and PM3's fail value is stored.
REST is PM3's value in VALID and HOLDING and the fail value in STARTING and FAILED; where it stays as it was nothing else
changes (R18, R20). -/
def Obligations.SetPowerChannelConfiguresTheChannel : Prop :=
  (∀ (v : PowerChannel) (failValue : Nat),
    (v.state = .starting ∨ v.state = .failed → restValue v failValue = failValue) ∧
      ∀ p, v.state = .valid ∨ v.state = .holding → v.value = some p → restValue v failValue = p) ∧
  ∀ (body : List Byte) (r : PowerChannelRequest) (s : State), s.inReset = false → shapeSetPowerChannel body = some r →
    let e := exec (.setPowerChannel (s.call .platform) body) s
    (4 < r.channel → e = .next (place .platform [0xA1, 0x01, 0x06, 0x58] s)) ∧
    ∀ n : PowerId, r.channel = n.number →
    let v := s.powers.get n
    let interval := max 1 (min 16 r.interval)
    let invalid := 7 < r.holdCount ∨ (n = .pm3 ∧ 150000 < r.failValue)
    (invalid → e = .next (place .platform [0xA1, 0x01, 0x06, 0x58] s)) ∧
      (¬invalid →
        ∃ t, e = .next
            (place .platform (frame 0xA1 [if interval = r.interval then 0 else 1, BitVec.ofNat 8 interval]) t) ∧
          t.powers = s.powers.set n
            { v with
              interval := interval, holdCount := r.holdCount
              timer := if interval = v.interval then v.timer else Timer.start interval } ∧
          t.restFail = (if n = .pm3 then r.failValue else s.restFail) ∧
          (restValue t.powers.pm3 t.restFail = restValue s.powers.pm3 s.restFail →
            { t with powers := s.powers, restFail := s.restFail } = s) ∧
          (restValue t.powers.pm3 t.restFail ≠ restValue s.powers.pm3 s.restFail →
            t.supply.pool = t.supply.available - r.failValue - s.supplyCfg.margin) ∧
          t.accounts = s.accounts ∧
          { t with powers := s.powers, restFail := s.restFail }.withoutChain = s.withoutChain)

/-- A delivery moves its domain's credit by (S_eff − P)·Δt, clamped to 0 … capacity, and applies the state rule; the allowance
follows the state, and no other account changes. It is judged against the limit in force when it arrived, as the tables of
R121 and R125 say; a limit that the same delivery lowers starts the settle window afterwards, which alone may make the
above count 0. A first EXCESS of the domain carries the power that completed it (R79 to R82, R121 to R123, R125, R126). -/
def Obligations.DeliveryReachesAccountAndCompliance : Prop :=
  (∀ (d : DomainId) (sample : Option Nat) (q : Quality) (power : Nat) (s : State), s.inReset = false →
    (s.powers.get (channelOf d)).timer.due = true → Delivers d sample q power s →
    let a := s.accounts.get d
    let credit :=
      (max 0 (min (a.capacity : Int)
        (a.credit + ((a.sEff : Int) - power) * (s.powers.get (channelOf d)).interval))).toNat
    let state :=
      if a.capacity = 0 then .sustained
      else if a.state = .burst then (if credit = 0 then .sustained else .burst)
      else if a.threshold ≤ credit then .burst else .sustained
    ∃ t, exec (.sampleArrival (channelOf d) sample) s = .next t ∧
      t.accounts = s.accounts.set d
        { a with credit := credit, state := state, allowance := if state = .burst then a.bEff else a.sEff }) ∧
  (∀ (d : DomainId) (sample : Option Nat) (q : Quality) (power : Nat) (s : State), s.inReset = false →
    (s.powers.get (channelOf d)).timer.due = true → Delivers d sample q power s →
    let c := s.compliance.get d
    let dom := s.domains.get d
    let limit := (s.grants.get d).limit
    let counted := q ≠ .substitute ∧ c.state = .normal ∧ c.settle = none ∧ limit * (100 + dom.tolerance) / 100 < power
    let enters := counted ∧ dom.aboveN ≤ c.above + 1
    let good := q ≠ .substitute ∧ c.state = .excess ∧ power ≤ limit
    let leaves := c.state = .excess ∧ (q = .substitute ∨ (good ∧ dom.belowM ≤ c.below + 1))
    let above :=
      if q = .substitute ∨ enters ∨ leaves then 0
      else if counted then c.above + 1
      else if c.state = .normal ∧ c.settle = none then 0 else c.above
    ∃ t, exec (.sampleArrival (channelOf d) sample) s = .next t ∧
      (t.compliance.get d).state = (if enters then .excess else if leaves then .normal else c.state) ∧
      (enters → FirstRecord .excess d.number .warning (some power) s t) ∧
      (t.compliance.get d).below
        = (if q = .substitute ∨ enters ∨ leaves then 0
          else if good then c.below + 1 else if c.state = .excess then 0 else c.below) ∧
      ((t.compliance.get d).above = above ∨
        ((t.compliance.get d).above = 0 ∧ (t.compliance.get d).settle = some (Timer.start dom.settleTime))))

/-- A PM4 arrival in VALID or HOLDING drives the supply trip watch as the table of R105 says, and the watch keeps its
power; as PM4 enters FAILED a running trip timer is cancelled (R105, R107, R108). -/
def Obligations.SysDeliveryDrivesTheTripWatch : Prop :=
  ∀ (sample : Option Nat) (s : State), s.inReset = false →
    s.powers.pm4.timer.due = true → s.powers.pm4.state ≠ .disabled →
    let v := s.powers.pm4
    let after : ChannelState := match sample with
      | some _ => .valid
      | none => badState v.state (min 8 (v.badRun + 1)) v.holdCount
    let power := match sample with
      | some p => min p 150000
      | none => v.value.getD 0
    let exceeds := s.supply.available * (100 + s.supplyCfg.tripPercent) / 100 < power
    ∃ t, exec (.sampleArrival .pm4 sample) s = .next t ∧
      (after = .valid ∨ after = .holding →
        t.watch.lastSys = power ∧
          t.watch.state = (match s.watch.state with
            | .clear => if exceeds then .timing (Timer.start s.supplyCfg.tripTime) else .clear
            | .timing w => if exceeds then .timing w else .clear
            | .tripped => if power ≤ s.supply.available then .clear else .tripped)) ∧
      (v.state ≠ .failed → after = .failed →
        t.watch.lastSys = s.watch.lastSys ∧
          t.watch.state = (if s.watch.state = .tripped then .tripped else .clear)) ∧
      (after = .starting ∨ (v.state = .failed ∧ after = .failed) → t.watch = s.watch)

/-! ## Posture (chapter 2) -/

/-- A level change of an input pin: to the level it has nothing happens; a return cancels the debounce timer; a change away
starts it from zero with the new level, or with debounce 0 takes the level at once (R22 to R24). -/
def Obligations.LevelChangeIsDebounced : Prop :=
  ∀ (l : InputId) (high : Bool) (s : State), s.inReset = false →
    let line := s.inputs.get l
    let asserted := interpret line.cfg.polarity high
    let e := exec (.inputLevelChange l high) s
    let put := fun v : InputLine => ({ s with inputs := s.inputs.set l v } : State)
    (line.pinHigh = high → e = .next s) ∧
      (line.pinHigh ≠ high → line.state = LineState.ofLevel asserted →
        e = .next (put { line with pinHigh := high, debouncing := none })) ∧
      (line.pinHigh ≠ high → line.state ≠ LineState.ofLevel asserted → line.cfg.debounce ≠ 0 →
        e = .next
          (put { line with
            pinHigh := high
            debouncing := some { timer := Timer.start line.cfg.debounce, tentative := asserted } })) ∧
      (line.pinHigh ≠ high → line.state ≠ LineState.ofLevel asserted → line.cfg.debounce = 0 →
        e = .next (takeLevel l asserted (put { line with pinHigh := high })))

/-- At a debounce timer's expiry, and wherever a level is taken, the level becomes the debounced state; the candidate is
evaluated from the four states, a changed candidate sets the dwell timer as R29 says, an edge of LID or ACIN empties the
hint slot, and the effective posture follows (R23 to R25, R28, R29, R32, R36). -/
def Obligations.TakenLevelIsHandedOn : Prop :=
  (∀ (l : InputId) (b : Debounce) (s : State), s.inReset = false →
    (s.inputs.get l).debouncing = some b → b.timer.due = true →
    exec (.debounceExpiry l) s = .next (takeLevel l b.tentative s)) ∧
  ∀ (l : InputId) (asserted : Bool) (s : State),
    let line := s.inputs.get l
    let t := takeLevel l asserted s
    let drops := line.state ≠ .undetermined ∧ (l = .lid ∨ l = .acin)
    t.inputs = s.inputs.set l { line with state := LineState.ofLevel asserted, debouncing := none } ∧
      t.candidate
        = (if t.inputs.lid.state = .undetermined ∨ t.inputs.acin.state = .undetermined ∨
            t.inputs.motion.state = .undetermined ∨ t.inputs.contact.state = .undetermined then none
          else if t.inputs.lid.state = .asserted then
            if t.inputs.motion.state = .asserted ∨ t.inputs.acin.state = .deasserted then some .bag else some .desk
          else if t.inputs.contact.state = .asserted ∨ t.inputs.motion.state = .asserted then some .lap
          else some .desk) ∧
      (t.candidate = s.candidate → t.committed = s.committed ∧ t.dwell = s.dwell) ∧
      (∀ c, t.candidate = some c → s.candidate ≠ some c →
        let enters := s.committed = .unsettled ∨ (s.committed = .desk ∧ c ≠ .desk) ∨ (s.committed = .lap ∧ c = .bag)
        let time := if enters then s.enterDwell else s.relaxDwell
        if c.posture = s.committed then t.dwell = none ∧ t.committed = s.committed
        else if time = 0 then t.dwell = none ∧ t.committed = c.posture
        else t.dwell = some (Timer.start time) ∧ t.committed = s.committed) ∧
      (drops → t.hint = none) ∧ (¬drops → t.committed = s.committed → t.hint = s.hint) ∧
      t.effective = effectiveOf t.hint t.committed ∧ t.mode = s.mode ∧ t.caps = s.caps ∧
      { t with
          inputs := s.inputs, candidate := s.candidate, dwell := s.dwell
          committed := s.committed }.withoutEvent = s.withoutEvent

/-- At the dwell timer's expiry the candidate is committed and the timer goes idle; a Port S hint that is now less restrictive
is dropped, any other hint stays, and the effective posture follows. SET_POSTURE_TIMING clamps both dwells and stores
them; a running dwell timer and everything else stay (R30 to R32, R38). -/
def Obligations.DwellExpiryCommitsTheCandidate : Prop :=
  (∀ (w : Timer) (c : Place) (s : State), s.inReset = false → s.dwell = some w → w.due = true → s.candidate = some c →
    ∃ t, exec .dwellExpiry s = .next t ∧ t.committed = c.posture ∧ t.dwell = none ∧ t.candidate = s.candidate ∧
      t.hint = (match s.hint with
        | some h => if h.origin = .system ∧ h.place.rank < c.rank then none else some h
        | none => none) ∧
      (s.hint.isSome = true → t.hint = none → Raised .hintDropped t) ∧
      t.effective = (match t.hint with
        | some h => h.place.posture
        | none => t.committed) ∧
      (t.effective ≠ s.effective → Raised .posture t) ∧ t.mode = s.mode ∧ t.caps = s.caps ∧
      { t with dwell := s.dwell, committed := s.committed }.withoutEvent = s.withoutEvent) ∧
  (∀ (body : List Byte) (s : State), s.inReset = false → body.length = 6 →
    let enter := min 10000 (u16 body 0)
    let relax := min 120000 (u32 body 2)
    exec (.setPostureTiming (s.call .platform) body) s = .next
      (place .platform
        (frame 0xA3
          ((if enter = u16 body 0 ∧ relax = u32 body 2 then 0 else 1) :: (leBytes 2 enter ++ leBytes 4 relax)))
        { s with enterDwell := enter, relaxDwell := relax }))

/-- SET_INPUT in SAFE on a line that exists clamps the debounce to 1000 and takes one effect for each changed field: a
changed polarity is a level change under the new debounce, a changed debounce restarts a running timer or takes its
tentative level at once, and a changed trigger is stored. All fields stand before an effect is taken, so an edge that the
request makes meets the new trigger (log 25); fields are compared after the clamping (log 11). A line number above 3 is
INVALID (R26, R27). -/
def Obligations.SetInputConfiguresTheLine : Prop :=
  ∀ (body : List Byte) (r : InputRequest) (s : State), s.inReset = false →
    s.mode = .safe → shapeSetInput body = some r →
    (3 < r.line → exec (.setInput (s.call .platform) body) s = .next (place .platform [0xA2, 0x01, 0x06, 0x57] s)) ∧
    ∀ l : InputId, r.line = l.number →
      let line := s.inputs.get l
      let debounce := min 1000 r.cfg.debounce
      let cfg := { r.cfg with debounce := debounce }
      let asserted := interpret cfg.polarity line.pinHigh
      let put := fun v : InputLine => ({ s with inputs := s.inputs.set l v } : State)
      ∃ t, exec (.setInput (s.call .platform) body) s = .next
          (place .platform (frame 0xA2 ((if debounce = r.cfg.debounce then 0 else 1) :: leBytes 2 debounce)) t) ∧
        (cfg.polarity ≠ line.cfg.polarity → line.state = LineState.ofLevel asserted →
          t = put { line with cfg := cfg, debouncing := none }) ∧
        (cfg.polarity ≠ line.cfg.polarity → line.state ≠ LineState.ofLevel asserted →
          t = if debounce = 0 then takeLevel l asserted (put { line with cfg := cfg })
            else put { line with
              cfg := cfg, debouncing := some { timer := Timer.start debounce, tentative := asserted } }) ∧
        (∀ b, cfg.polarity = line.cfg.polarity → debounce ≠ line.cfg.debounce → line.debouncing = some b →
          t = if debounce = 0 then takeLevel l b.tentative (put { line with cfg := cfg })
            else put { line with cfg := cfg, debouncing := some { b with timer := Timer.start debounce } }) ∧
        (cfg.polarity = line.cfg.polarity → debounce = line.cfg.debounce ∨ line.debouncing = none →
          t = put { line with cfg := cfg })

/-- POSTURE_HINT: Port S in SAFE is answered STATE; UNSETTLED and an undefined code are INVALID; Port P fills or empties the
slot whatever it holds; Port S, in ACTIVE, is DENIED while the slot holds a Port P hint and for a hint less restrictive
than the committed posture, and fills or empties the slot otherwise. A change of the slot changes the effective posture,
with POSTURE, and what follows from it only; no HINT_DROPPED is raised (R32 to R35). -/
def Obligations.PostureHintFillsOrEmptiesTheSlot : Prop :=
  ∀ (port : Port) (code : Byte) (s : State), s.inReset = false →
    let e := exec (.postureHint (s.call port) [code]) s
    let barred := port = .system ∧ ∃ h, s.hint = some h ∧ h.origin = .platform
    let denied := Host.Outcome.next (place port [0xB2, 0x01, 0x04, 0x49] s)
    let fills := fun hint : Option Hint =>
      ∃ t, e = .next (place port [0xB2, 0x01, 0x00, 0x4D] t) ∧ t.hint = hint ∧ (hint = s.hint → t = s) ∧
        (hint ≠ s.hint → t.effective = effectiveOf hint s.committed) ∧
        (t.effective ≠ s.effective → Raised .posture t) ∧
        (∀ p, (t.notices.get p).pending.has .hintDropped = (s.notices.get p).pending.has .hintDropped) ∧
        t.mode = s.mode ∧ t.caps = s.caps ∧ t.withoutEvent = s.withoutEvent
    (port = .system → s.mode = .safe → e = .next (place port [0xB2, 0x01, 0x05, 0x48] s)) ∧
      (port = .platform ∨ s.mode = .active →
        ((code = 0 ∨ (3 < code.toNat ∧ code ≠ 0xFF)) → e = .next (place port [0xB2, 0x01, 0x06, 0x47] s)) ∧
          (code = 0xFF → (barred → e = denied) ∧ (¬barred → fills none)) ∧
          ∀ h : Place, code = BitVec.ofNat 8 h.posture.code →
            let below := port = .system ∧
              ((h = .desk ∧ (s.committed = .lap ∨ s.committed = .bag)) ∨ (h = .lap ∧ s.committed = .bag))
            (barred ∨ below → e = denied) ∧ (¬barred → ¬below → fills (some ⟨h, port⟩)))

/-! ## Zones (chapter 4) and profile table (chapter 3) -/

/-- While a source offers no consumer value, an expiry of the zone's update timer restarts the timer and does nothing else.
Otherwise the zone makes its update: raw value, first or filtered estimate, trip check, ladder, percent and the domains'
thermal percents, from the skin limit of the column in use; other zones stay as they are. The first update leaves the held
count as it is unless it jumps. A first ZONE_TRIP of the zone carries the estimate (R55 to R59, R61, R62, R64, R65, R68). -/
def Obligations.ZoneUpdateFollowsTheSkin : Prop :=
  (∀ (z : ZoneId) (w : Timer) (s : State), s.inReset = false → (s.zones.get z).timer = some w → w.due = true →
    let v := s.zones.get z
    (∃ src ∈ v.cfg.sources,
      (s.temps.get src.channel).state = .starting ∨ (s.temps.get src.channel).state = .disabled) →
    exec (.zoneUpdate z) s
      = .next { s with zones := s.zones.set z { v with timer := some (Timer.start v.cfg.interval) } }) ∧
  (∀ (z : ZoneId) (w : Timer) (value : TempId → Int) (before : Int) (top : Nat) (s : State), s.inReset = false →
    (s.zones.get z).timer = some w → w.due = true →
    let v := s.zones.get z
    (∀ src ∈ v.cfg.sources, Offers (s.temps.get src.channel) (value src.channel)) →
    (v.state = .starting ∨ ((v.state = .active ∨ v.state = .tripped) ∧ v.estimate = some before)) →
    let raw := ((v.cfg.sources.map fun src => src.weight * value src.channel).sum + 128) / 256
    let diff := raw - before
    let moved : Int := (max (min diff.natAbs 1) ((diff.natAbs * v.cfg.alpha + 128) / 256) : Nat)
    let estimate := if v.state = .starting then raw else if diff < 0 then before - moved else before + moved
    let limit := (s.skin.get z).get s.column
    IsTop v.ladder limit estimate top →
    let point := limit + v.cfg.tripMargin
    let state : ZoneState :=
      if v.state = .tripped then (if estimate < point - v.cfg.hysteresis then .active else .tripped)
      else if point ≤ estimate then .tripped else .active
    let descends := v.state ≠ .starting ∧ v.position ≠ 0 ∧ v.cfg.descentDwell ≤ v.held ∧
      ∃ step, v.ladder[v.position - 1]? = some step ∧ estimate < limit - step.offset - v.cfg.hysteresis
    ∃ (t : State) (after : Zone), exec (.zoneUpdate z) s = .next t ∧ t.zones = s.zones.set z after ∧
      { after with position := v.position, held := v.held, percent := v.percent }
        = { v with estimate := some estimate, state := state, timer := some (Timer.start v.cfg.interval) } ∧
      (v.position < top → after.position = top ∧ after.held = 0) ∧
      (¬v.position < top → descends → after.position = v.position - 1 ∧ after.held = 0) ∧
      (¬v.position < top → ¬descends →
        after.position = v.position ∧
          after.held = if v.state = .starting then v.held else min 15 (v.held + 1)) ∧
      after.percent = (if after.position = v.position then v.percent
        else if after.position = 0 then 100 else (v.ladder[after.position - 1]?.map (·.percent)).getD 100) ∧
      (after.position ≠ v.position → Raised .ladder t) ∧
      (¬(after.state = .tripped ↔ v.state = .tripped) → Raised .trip t) ∧
      (v.state ≠ .tripped → state = .tripped → FirstRecord .zoneTrip z.number .warning (some estimate) s t) ∧
      (∀ d, LeastPercent t.zones d (t.thermal.get d)) ∧ t.withoutUpdate = s.withoutUpdate)

/-- SET_ZONE in SAFE on a zone and channels that exist: a value out of range, an ill-formed source list, or enabling
without sources, with a source that is not enabled or without influence is INVALID; otherwise the interval is clamped and
the zone stays as it is, is stored, restarted, enabled or disabled (R54, R55, R60, R63, R68, R70 to R72). Fields are
compared after the adjustment, and an adjusted request that changes none is CLAMPED: the model's choice (log 11). -/
def Obligations.SetZoneConfiguresTheZone : Prop :=
  ∀ (body : List Byte) (r : ZoneRequest) (z : ZoneId) (sources : List Source) (s : State), s.inReset = false →
    s.mode = .safe → shapeSetZone body = some r → r.zone = z.number →
    r.slots = sources.map (fun src => ⟨src.channel.number, src.weight⟩) →
    let v := s.zones.get z
    let e := exec (.setZone (s.call .platform) body) s
    let invalid := r.alpha = 0 ∨ 256 < r.alpha ∨ 100 < r.hysteresis ∨ r.descentDwell = 0 ∨ 15 < r.descentDwell ∨
      150 < r.tripMargin ∨ 3 < r.sourceCount ∨ (∃ src ∈ sources, src.weight = 0 ∨ 256 < src.weight) ∨
      (sources ≠ [] ∧ (¬(sources.map (·.channel)).Nodup ∨ (sources.map (·.weight)).sum ≠ 256)) ∨
      (r.enabled = true ∧ (sources = [] ∨ (∃ src ∈ sources, (s.temps.get src.channel).cfg.enabled = false) ∨
        r.influence = ⟨false, false, false⟩))
    let interval := max 100 (min 10000 (100 * (r.interval / 100)))
    let cfg : ZoneConfig :=
      { enabled := r.enabled, sources := sources, influence := r.influence, alpha := r.alpha, interval := interval
        hysteresis := r.hysteresis, descentDwell := r.descentDwell, tripMargin := r.tripMargin }
    let failed := fun src : Source => (s.temps.get src.channel).state = .failed
    (invalid → e = .next (place .platform [0xA4, 0x01, 0x06, 0x55] s)) ∧
      (¬invalid →
        ∃ t, e = .next
            (place .platform (frame 0xA4 ((if interval = r.interval then 0 else 1) :: leBytes 2 interval)) t) ∧
          (cfg = v.cfg → t = s) ∧
          (cfg ≠ v.cfg → v.cfg.enabled = false → cfg.enabled = false →
            t = { s with zones := s.zones.set z { v with cfg := cfg } }) ∧
          (cfg ≠ v.cfg → v.cfg.enabled = true ∨ cfg.enabled = true →
            t.zones = s.zones.set z
                { cfg := cfg, ladder := v.ladder, state := if cfg.enabled then .starting else .off, estimate := none
                  position := 0, held := 0, percent := 100
                  degraded := decide (cfg.enabled = true ∧ ∃ src ∈ sources, failed src)
                  blind := decide (cfg.enabled = true ∧ ∀ src ∈ sources, failed src)
                  timer := if cfg.enabled then some (Timer.start interval) else none } ∧
              (∀ d, LeastPercent t.zones d (t.thermal.get d))) ∧
          t.withoutUpdate = s.withoutUpdate)

/-- SET_LADDER on a zone that exists: a ladder out of range or out of order is INVALID; otherwise the steps are stored, a
position above the step count is clamped with held 0, and the percents follow, with no trip check and no ladder movement
(R65, R68, R73, R74). -/
def Obligations.SetLadderStoresTheSteps : Prop :=
  ∀ (body : List Byte) (r : LadderRequest) (z : ZoneId) (s : State), s.inReset = false →
    shapeSetLadder body = some r → r.zone = z.number →
    let v := s.zones.get z
    let e := exec (.setLadder (s.call .platform) body) s
    let invalid := (∃ a ∈ r.steps, 300 < a.offset ∨ 100 < a.percent) ∨
      ∃ k a b, r.steps[k]? = some a ∧ r.steps[k + 1]? = some b ∧ (a.offset ≤ b.offset ∨ a.percent < b.percent)
    let position := min v.position r.steps.length
    (invalid → e = .next (place .platform [0xA5, 0x01, 0x06, 0x54] s)) ∧
      (¬invalid →
        ∃ t, e = .next (place .platform [0xA5, 0x01, 0x00, 0x5A] t) ∧ (r.steps = v.ladder → t = s) ∧
          (r.steps ≠ v.ladder →
            t.zones = s.zones.set z
                { v with
                  ladder := r.steps, position := position, held := if position = v.position then v.held else 0
                  percent := if position = 0 then 100 else (r.steps[position - 1]?.map (·.percent)).getD 100 } ∧
              (r.steps.length < v.position → Raised .ladder t) ∧
              (∀ d, LeastPercent t.zones d (t.thermal.get d))) ∧
          t.withoutUpdate = s.withoutUpdate)

/-- SET_PROFILE on an entry that exists: an entry that breaks the relations of R44 is INVALID; otherwise it is stored, and
a changed entry of the column in use re-selects the domain's account, whose limits, capacity, credit, state and allowance
follow at once (R46 to R48, R77, R78, R81, R82, R84). -/
def Obligations.SetProfileStoresTheEntry : Prop :=
  ∀ (body : List Byte) (d : DomainId) (c : Column) (e : Entry) (s : State), s.inReset = false →
    shapeSetProfile body = some ⟨d.number, c.number, e⟩ →
    let x := exec (.setProfile (s.call .platform) body) s
    let invalid := e.s < 1000 ∨ e.b < e.s ∨ 150000 < e.b ∨ 64000 < e.w ∨ e.s < (s.domains.get d).lmin
    let a := s.accounts.get d
    let capacity := (e.b - e.s) * e.w
    let threshold := max 1 (capacity * (s.domains.get d).recover / 100)
    let state := ruledState a.state capacity (min a.credit capacity) threshold
    let profile := s.profile.set d ((s.profile.get d).set c e)
    (invalid → x = .next (place .platform [0xA6, 0x01, 0x06, 0x53] s)) ∧
      (¬invalid →
        ∃ t, x = .next (place .platform [0xA6, 0x01, 0x00, 0x59] t) ∧
          (c ≠ s.column ∨ e = (s.profile.get d).get c → t = { s with profile := profile }) ∧
          (c = s.column → e ≠ (s.profile.get d).get c →
            t.profile = profile ∧
              t.accounts = s.accounts.set d
                { s := e.s, b := e.b, w := e.w, capacity := capacity, credit := min a.credit capacity, state := state
                  percent := a.percent, sEff := e.s * a.percent / 100, bEff := e.b * a.percent / 100
                  threshold := threshold
                  allowance := if state = .burst then e.b * a.percent / 100 else e.s * a.percent / 100 }) ∧
          t.thermal = s.thermal ∧ { t with profile := s.profile }.withoutChain = s.withoutChain)

/-- SET_SKIN_LIMITS on a zone that exists: a limit outside −400 … 1500 is INVALID; otherwise all five are stored, and a
changed limit of the column in use re-selects the zone, which makes its trip check and jumps up at once if it is ACTIVE or
TRIPPED (R50, R51, R61, R66, R68). -/
def Obligations.SetSkinLimitsStoresTheLimits : Prop :=
  ∀ (body : List Byte) (z : ZoneId) (limits : PerColumn Int) (s : State), s.inReset = false →
    shapeSetSkinLimits body = some ⟨z.number, limits⟩ →
    let x := exec (.setSkinLimits (s.call .platform) body) s
    let v := s.zones.get z
    let limit := limits.get s.column
    ((∃ c, ¬InRange (limits.get c)) → x = .next (place .platform [0xA7, 0x01, 0x06, 0x52] s)) ∧
      ((∀ c, InRange (limits.get c)) →
        ∃ t, x = .next (place .platform [0xA7, 0x01, 0x00, 0x58] t) ∧ t.skin = s.skin.set z limits ∧
          (limit = (s.skin.get z).get s.column → t = { s with skin := s.skin.set z limits }) ∧
          (limit ≠ (s.skin.get z).get s.column →
            (v.counts = false → t.zones = s.zones) ∧
              (v.counts = true →
                Rechecked v limit (t.zones.get z) ∧ t.zones = s.zones.set z (t.zones.get z)) ∧
              ∀ d, LeastPercent t.zones d (t.thermal.get d)) ∧
          { t with skin := s.skin }.withoutUpdate = s.withoutUpdate)

/-! ## Domains (chapters 5 to 7) -/

/-- At its expiry a domain's settle timer goes idle; counts, state and everything else stay (R122). -/
def Obligations.SettleTimerGoesIdle : Prop :=
  ∀ (d : DomainId) (w : Timer) (s : State), s.inReset = false → (s.compliance.get d).settle = some w → w.due = true →
    exec (.settleTimerExpiry d) s
      = .next { s with compliance := s.compliance.set d { s.compliance.get d with settle := none } }

/-- SET_DOMAIN in SAFE on a domain that exists: a value out of range, or an Lmin above an S of the domain, is INVALID;
otherwise the settle time is clamped, all fields are stored, and a changed recover percent, arbitration field, Lmin or
compliance field takes its effect at once (R81, R88, R99, R114, R115, R124). Fields are compared after the clamping (log
11). -/
def Obligations.SetDomainStoresTheRecord : Prop :=
  ∀ (body : List Byte) (d : DomainId) (r : DomainRecord) (s : State), s.inReset = false →
    s.mode = .safe → shapeSetDomain body = some ⟨d.number, r⟩ →
    let x := exec (.setDomain (s.call .platform) body) s
    let old := s.domains.get d
    let a := s.accounts.get d
    let settle := min 2000 r.settleTime
    let new := { r with settleTime := settle }
    let invalid := r.recover = 0 ∨ 100 < r.recover ∨ 2 < r.priority ∨ 150000 < r.floor ∨ 150000 < r.lmin ∨
      (∃ c, ((s.profile.get d).get c).s < r.lmin) ∨ 50 < r.tolerance ∨ r.aboveN = 0 ∨ 64 < r.aboveN ∨ r.belowM = 0 ∨
      64 < r.belowM
    let threshold := max 1 (a.capacity * r.recover / 100)
    let state := ruledState a.state a.capacity a.credit threshold
    let judged := r.tolerance ≠ old.tolerance ∨ r.aboveN ≠ old.aboveN ∨ r.belowM ≠ old.belowM
    (invalid → x = .next (place .platform [0xA8, 0x01, 0x06, 0x51] s)) ∧
      (¬invalid →
        ∃ t, x = .next
            (place .platform (frame 0xA8 ((if settle = r.settleTime then 0 else 1) :: leBytes 2 settle)) t) ∧
          (new = old → t = s) ∧ t.domains = s.domains.set d new ∧
          t.accounts = (if r.recover = old.recover then s.accounts
            else s.accounts.set d
              { a with
                threshold := threshold, state := state, allowance := if state = .burst then a.bEff else a.sEff }) ∧
          (r.arbitrated ≠ old.arbitrated ∨ r.priority ≠ old.priority ∨ r.floor ≠ old.floor →
            t.supply = allocationOf t) ∧
          (r.lmin ≠ old.lmin → (t.grants.get d).agrees (resolution (t.contributors.get d) r.lmin) = true) ∧
          (judged → (t.compliance.get d).above = 0 ∧ (t.compliance.get d).below = 0) ∧
          (¬judged → (t.compliance.get d).below = (s.compliance.get d).below) ∧
          (r = { old with settleTime := r.settleTime } → t.compliance = s.compliance) ∧
          (∀ d', (t.compliance.get d').state = (s.compliance.get d').state) ∧ t.thermal = s.thermal ∧
          { t with domains := s.domains }.withoutChain = s.withoutChain)

/-- SET_CAP on a domain that exists, on Port P, or on Port S in ACTIVE: the power is clamped to 150000 and, on Port S,
raised to the domain's floor; the port's cap becomes it or absent, and a change is offered to the resolver and the
arbiter. The same cap changes nothing (R111, R112). -/
def Obligations.SetCapStoresThePortsCap : Prop :=
  ∀ (port : Port) (body : List Byte) (d : DomainId) (cap : Option Nat) (s : State), s.inReset = false →
    (port = .system → s.mode = .active) → shapeSetCap body = some ⟨d.number, cap⟩ →
    let taken := cap.map fun p =>
      match port with
      | .platform => min p 150000
      | .system => max (s.domains.get d).floor (min p 150000)
    let caps := match port with
      | .platform => { s.caps.get d with capP := taken }
      | .system => { s.caps.get d with capS := taken }
    ∃ t, exec (.setCap (s.call port) body) s = .next
        (place port (frame 0xB1 ((if taken = cap then 0 else 1) :: leBytes 4 (taken.getD 4294967295))) t) ∧
      t.caps = s.caps.set d caps ∧ (caps = s.caps.get d → t = s) ∧
      (caps ≠ s.caps.get d →
        t.supply = allocationOf t ∧
          ((t.contributors.get d).capP, (t.contributors.get d).capS) = (caps.capP, caps.capS) ∧
          (t.grants.get d).agrees (resolution (t.contributors.get d) (s.domains.get d).lmin) = true) ∧
      t.accounts = s.accounts ∧ t.thermal = s.thermal ∧
      { t with caps := s.caps }.withoutChain = s.withoutChain

/-- A resolution takes the smallest contributor present, raised to Lmin; the owner is the first of ALLOWANCE, SUPPLY, CAP_P and
CAP_S that is as small, ALLOWANCE being THERMAL below 100 percent and PROFILE at 100; the floor is applied where it is
below Lmin. A resolution that finds what the record holds changes nothing; another changes the record, counts the change
modulo 65536, stamps it with the uptime and raises GRANT. One that lowers the limit starts the settle timer with the settle
time in force and, in NORMAL, makes the above count 0; no other, and none with a settle time of 0, touches the compliance
(log 12 for a timer that runs). Every grant limit lies between the domain's Lmin and the burst limit B of the column in
use. After reset the limits are 7000, 2000 with the floor applied, and 0, all owned by SUPPLY (R116 to R118, R122). -/
def Obligations.GrantsFollowTheContributors : Prop :=
  (∀ (c : Contributors) (lmin : Nat),
    let r := resolution c lmin
    let atMost := fun m v : Option Nat => ∀ a b, m = some a → v = some b → a ≤ b
    let below := fun m v : Option Nat => ∀ a b, m = some a → v = some b → a < b
    let values := [some c.allowance, c.share, c.capP, c.capS]
    let winner := match r.owner with
      | .thermal => some c.allowance
      | .profile => some c.allowance
      | .supply => c.share
      | .capP => c.capP
      | .capS => c.capS
    let before := match r.owner with
      | .thermal => []
      | .profile => []
      | .supply => [some c.allowance]
      | .capP => [some c.allowance, c.share]
      | .capS => [some c.allowance, c.share, c.capP]
    ∃ m, winner = some m ∧ (∀ v ∈ values, atMost winner v) ∧ (∀ v ∈ before, below winner v) ∧
      (r.owner = .thermal → c.percent < 100) ∧ (r.owner = .profile → 100 ≤ c.percent) ∧
      r.limit = max lmin m ∧ r.floorApplied = decide (m < lmin)) ∧
  (∀ (d : DomainId) (s : State),
    let r := resolution (s.contributors.get d) (s.domains.get d).lmin
    let g := s.grants.get d
    let c := s.compliance.get d
    let time := (s.domains.get d).settleTime
    let t := resolve d s
    let same := g.limit = r.limit ∧ g.owner = r.owner ∧ g.floorApplied = r.floorApplied
    (same → t = s) ∧
      (¬same →
        t.grants = s.grants.set d
            { limit := r.limit, owner := r.owner, floorApplied := r.floorApplied
              changeCount := (g.changeCount + 1) % 65536, changedAt := s.uptime } ∧
          Raised .grant t ∧
          t.compliance = (if r.limit < g.limit ∧ time ≠ 0 then
            s.compliance.set d
              { c with settle := some (Timer.start time), above := if c.state = .normal then 0 else c.above }
            else s.compliance) ∧
          { t with grants := s.grants, compliance := s.compliance, notices := s.notices } = s)) ∧
  (∀ s : State, s.EntriesSafe → s.ZonesSafe → s.AccountsSafe → s.GrantsSafe →
    ∀ d : DomainId, (s.domains.get d).lmin ≤ (s.grants.get d).limit ∧
      (s.grants.get d).limit ≤ ((s.profile.get d).get s.column).b) ∧
  (State.reset.grants = ⟨⟨7000, .supply, false, 0, 0⟩, ⟨2000, .supply, true, 0, 0⟩, ⟨0, .supply, false, 0, 0⟩⟩ ∧
    ∀ d, (State.reset.grants.get d).agrees
      (resolution (State.reset.contributors.get d) (State.reset.domains.get d).lmin) = true)

/-! ## Supply (chapter 6) -/

/-- The pool is served to the arbitrated domains in priority order, D0 first among equals: each in turn the smallest of
its floor, its demand and what remains, and then each in turn the rest of its demand as far as it remains; a domain that is
not arbitrated has no share (R99, R101). -/
def Obligations.SharesAreServedByPriority : Prop :=
  ∀ (pool : Nat) (records : PerDomain DomainRecord) (demand : PerDomain Nat) (a b c : DomainId),
    let earlier := fun x y : DomainId =>
      (records.get x).priority < (records.get y).priority ∨
        ((records.get x).priority = (records.get y).priority ∧ x.number < y.number)
    earlier a b → earlier b c →
    let asks := fun x => if (records.get x).arbitrated then demand.get x else 0
    let floor := fun x => min (records.get x).floor (asks x)
    let fa := min (floor a) pool
    let fb := min (floor b) (pool - fa)
    let fc := min (floor c) (pool - fa - fb)
    let rest := pool - fa - fb - fc
    let ea := min (asks a - fa) rest
    let eb := min (asks b - fb) (rest - ea)
    let ec := min (asks c - fc) (rest - ea - eb)
    let share := fun x given => if (records.get x).arbitrated then some given else none
    (sharesOf pool records demand).get a = share a (fa + ea) ∧
      (sharesOf pool records demand).get b = share b (fb + eb) ∧
      (sharesOf pool records demand).get c = share c (fc + ec) ∧
      (fa + ea) + (fb + eb) + (fc + ec) ≤ pool ∧ fa + ea ≤ demand.get a ∧ fb + eb ≤ demand.get b ∧
      fc + ec ≤ demand.get c

/-- SUPPLY_REPORT clamps and stores its three fields and marks the report received; source, available power, pool, demands and
shares are computed again. SET_SUPPLY_CONFIG in SAFE refuses a value out of range with INVALID, and otherwise clamps the
trip time, stores all five fields and lets the arbiter compute again, with a running trip timer left; fields are compared
after the clamping (log 11). Accounts, thermal percents and everything beyond grants, compliance and lines stay (R93 to
R98, R100). -/
def Obligations.SupplyRequestsFeedTheArbiter : Prop :=
  (∀ (body : List Byte) (s : State), s.inReset = false → body.length = 9 →
    let rating := min 150000 (u32 body 0)
    let derate := max 50 (min 100 (u8 body 4))
    let battery := min 150000 (u32 body 5)
    let kept := rating = u32 body 0 ∧ derate = u8 body 4 ∧ battery = u32 body 5
    let adapter := s.inputs.acin.state = .asserted
    let available :=
      if adapter then (if rating = 0 then s.supplyCfg.unknownRating else rating) * derate / 100 else battery
    let demand := fun d =>
      let least := fun p (cap : Option Nat) => min p (cap.getD p)
      least (least (s.accounts.get d).allowance (s.caps.get d).capP) (s.caps.get d).capS
    exec (.supplyReport (s.call .system) body) s = .next (place .system [0xB0, 0x01, 0x04, 0x4B] s) ∧
    ∃ t, exec (.supplyReport (s.call .platform) body) s = .next
        (place .platform
          (frame 0xB0 ((if kept then 0 else 1) :: (leBytes 4 rating ++ leBytes 1 derate ++ leBytes 4 battery))) t) ∧
      t.report = { rating := rating, derate := derate, battery := some battery, received := true } ∧
      t.supply.source = (if adapter then .adapter else .battery) ∧ t.supply.available = available ∧
      t.supply.pool = available - (restValue s.powers.pm3 s.restFail + s.supplyCfg.margin) ∧
      (∀ d, t.supply.demand.get d = demand d) ∧
      t.supply.share = sharesOf t.supply.pool s.domains t.supply.demand ∧
      (s.GrantsSafe → s.LinesSafe → t.report = s.report → t = s) ∧
      t.accounts = s.accounts ∧ t.thermal = s.thermal ∧
      { t with report := s.report }.withoutChain = s.withoutChain) ∧
  (∀ (body : List Byte) (c : SupplyConfig) (s : State), s.inReset = false →
    s.mode = .safe → shapeSetSupplyConfig body = some c →
    let x := exec (.setSupplyConfig (s.call .platform) body) s
    let invalid := 20000 < c.margin ∨ c.unknownRating < 5000 ∨ 150000 < c.unknownRating ∨ c.batteryDefault < 5000 ∨
      150000 < c.batteryDefault ∨ 50 < c.tripPercent
    let time := max 1 (min 1000 c.tripTime)
    let new := { c with tripTime := time }
    (invalid → x = .next (place .platform [0xAA, 0x01, 0x06, 0x4F] s)) ∧
      (¬invalid →
        ∃ t, x = .next
            (place .platform (frame 0xAA ((if time = c.tripTime then 0 else 1) :: leBytes 2 time)) t) ∧
          t.supplyCfg = new ∧ (new = s.supplyCfg → t = s) ∧ (new ≠ s.supplyCfg → t.supply = allocationOf t) ∧
          t.accounts = s.accounts ∧ t.thermal = s.thermal ∧
          { t with supplyCfg := s.supplyCfg }.withoutChain = s.withoutChain))

/-- At the trip timer's expiry the watch becomes TRIPPED, keeping the power it judged last; SUPPLY_TRIP is present in the
log, in a first record with that power; every throttle line is asserted for it; and the mode is SAFE (R106, R131, R132,
R144, R153). -/
def Obligations.TripTimerExpiryTrips : Prop :=
  ∀ (w : Timer) (s : State), s.inReset = false → s.watch.state = .timing w → w.due = true →
    ∃ t, exec .tripTimerExpiry s = .next t ∧ t.watch = { state := .tripped, lastSys := s.watch.lastSys } ∧
      presentIn t.faults .supplyTrip 0 ∧
      ((∀ r ∈ s.faults, r.kind ≠ .supplyTrip) → ∃ r ∈ t.faults,
        r = { kind := .supplyTrip, subject := 0, severity := .fatal, present := some true, count := 1
              firstTime := s.uptime, lastTime := s.uptime, firstValue := some s.watch.lastSys }) ∧
      (∀ l, (t.lines.get l).drive = true ∧ (t.lines.get l).cause = .supplyTrip) ∧ FallsSafe s t ∧
      (s.mode = .safe → t.supply = s.supply) ∧
      { t with watch := s.watch }.withoutEvent = s.withoutEvent

/-! ## Throttle lines (chapter 8) -/

/-- A level change at a throttle pin: to the level it has nothing happens; otherwise the sensed level follows the polarity,
the readback comparison is made, a mismatch starts the window timer unless it runs or LINE_STUCK is present, and a match
ends both (R130, R137, R138, R139). -/
def Obligations.SensedChangeIsCompared : Prop :=
  ∀ (l : LineId) (high : Bool) (s : State), s.inReset = false →
    let v := s.lines.get l
    let e := exec (.sensedLevelChange l high) s
    let sensed := match v.cfg.polarity with
      | .activeHigh => high
      | .activeLow => !high
    let bad := match v.cfg.output with
      | .openDrain => v.drive && !sensed
      | .pushPull => v.drive != sensed
    (v.pinHigh = high → e = .next s) ∧
      (v.pinHigh ≠ high → e = .next
        { s with
          lines := s.lines.set l
            { v with
              pinHigh := high, sensed := sensed
              external := decide (v.cfg.output = .openDrain) && !v.drive && sensed
              stuck := v.stuck && bad
              window := if bad = false then none
                else if v.stuck then v.window else some (v.window.getD (Timer.start v.cfg.window)) }
          faults := if v.stuck && !bad then
              s.faults.map fun r =>
                if r.kind = .lineStuck ∧ r.subject = l.number then { r with present := some false } else r
            else s.faults })

/-- At the readback window timer's expiry the timer goes idle, the line is stuck, LINE_STUCK is recorded as present, counted
on in its record or created in a first one with FAULT, and the mode is SAFE. Only where leaving ACTIVE changes the line's
drive, and the comparison of the new drive finds a match, does the condition end again in the same event, and its record
stays as not present. With the mode SAFE already, and every line as its sources have it, only the line's record, the log and
the notices change (R132, R137, R139, R144 to R146, R153). -/
def Obligations.WindowExpiryMakesTheLineStuck : Prop :=
  ∀ (l : LineId) (w : Timer) (s : State), s.inReset = false → (s.lines.get l).window = some w → w.due = true →
    ∃ t, exec (.readbackWindowExpiry l) s = .next t ∧
      (let v := t.lines.get l
        let bad := match v.cfg.output with
          | .openDrain => v.drive && !v.sensed
          | .pushPull => v.drive != v.sensed
        v.window = none ∧ (v.drive = (s.lines.get l).drive ∨ bad = true → v.stuck = true) ∧
          (v.drive ≠ (s.lines.get l).drive → bad = false → v.stuck = false) ∧
          (v.stuck = true → presentIn t.faults .lineStuck l.number) ∧
          (∀ (k : Nat) (r : FaultRecord), s.faults[k]? = some r → r.kind = .lineStuck → r.subject = l.number →
            t.faults[k]? = some
              { r with count := min 255 (r.count + 1), lastTime := s.uptime, present := some v.stuck }) ∧
          ((∀ r ∈ s.faults, ¬(r.kind = .lineStuck ∧ r.subject = l.number)) →
            t.faults[s.faults.length]? = some
                { kind := .lineStuck, subject := l.number, severity := .fatal, present := some v.stuck, count := 1
                  firstTime := s.uptime, lastTime := s.uptime, firstValue := none } ∧
              Raised .fault t)) ∧
      FallsSafe s t ∧ t.withoutEvent = s.withoutEvent ∧
      (s.mode = .safe → s.LinesSafe →
        presentIn t.faults .lineStuck l.number ∧
          t.lines = s.lines.set l { s.lines.get l with stuck := true, window := none } ∧
          t.withoutLog = { s with lines := t.lines }.withoutLog)

/-- FORCE_LINE stores a line's manual level; the drive is asserted while a protective source is active or the level says
so, with MANUAL the last of the causes; the pin is driven as output type and polarity say; the level already held changes
nothing, and where the lines follow their sources no other line changes. A line number above 3 is INVALID. The sources of a
routing and the outputs of a pin are those of the tables (R129, R131, R132, R134). -/
def Obligations.ForceLineSetsTheManualLevel : Prop :=
  (∀ (routing : DomainSet) (s : State),
    let view := viewOf s routing
    (view.supplyTrip = true ↔ s.watch.state = .tripped) ∧
      (view.zoneTrip = true ↔ ∃ z d, (s.zones.get z).state = .tripped ∧
        (s.zones.get z).cfg.influence.get d = true ∧ routing.get d = true) ∧
      (view.excess = true ↔ ∃ d, routing.get d = true ∧ (s.compliance.get d).state = .excess) ∧
      (view.floor = true ↔ ∃ d, routing.get d = true ∧ (s.grants.get d).floorApplied = true)) ∧
  (∀ drive : Bool,
    pinOutOf .openDrain .activeLow drive = (if drive then .low else .highImpedance) ∧
      pinOutOf .pushPull .activeLow drive = (if drive then .low else .high) ∧
      pinOutOf .pushPull .activeHigh drive = (if drive then .high else .low)) ∧
  ∀ (b : Byte) (level : Bool) (s : State), s.inReset = false →
    let e := exec (.forceLine (s.call .platform) [b, if level then 1 else 0]) s
    (3 < b.toNat → e = .next (place .platform [0xB3, 0x01, 0x06, 0x46] s)) ∧
      ∀ l : LineId, b.toNat = l.number →
        let v := s.lines.get l
        let view := viewOf s v.cfg.routing
        ∃ t, e = .next (place .platform [0xB3, 0x01, 0x00, 0x4C] t) ∧ (v.manual = level → t = s) ∧
          (v.manual ≠ level →
            (t.lines.get l).cfg = v.cfg ∧ (t.lines.get l).manual = level ∧ (t.lines.get l).view = view ∧
              (t.lines.get l).pinOut = pinOutOf v.cfg.output v.cfg.polarity (t.lines.get l).drive ∧
              (t.lines.get l).drive = (view.supplyTrip || view.zoneTrip || view.excess || view.floor || level) ∧
              (t.lines.get l).cause
                = (if view.supplyTrip then .supplyTrip else if view.zoneTrip then .zoneTrip
                  else if view.excess then .excess else if view.floor then .floor
                  else if level then .manual else .none)) ∧
          (s.LinesSafe → ∀ l', l' ≠ l → t.lines.get l' = s.lines.get l') ∧ t.withoutEnd = s.withoutEnd

/-- SET_ROUTING in SAFE on a line that exists: OPEN_DRAIN with ACTIVE_HIGH is INVALID; otherwise the window is clamped, all
four fields are stored, the sensed level follows the polarity, drive and pin follow the new routing, and a changed output
type, polarity or drive makes the readback comparison afresh, with the pin as it stands: its level comes by
SENSED_LEVEL_CHANGE only (log 14). Fields are compared after the clamping (log 11) (R129 to R132, R135 to R138). -/
def Obligations.SetRoutingConfiguresTheLine : Prop :=
  ∀ (body : List Byte) (r : RoutingRequest) (l : LineId) (s : State), s.inReset = false →
    s.mode = .safe → shapeSetRouting body = some r → r.line = l.number →
    let v := s.lines.get l
    let x := exec (.setRouting (s.call .platform) body) s
    let window := max 1 (min 50 r.cfg.window)
    let cfg := { r.cfg with window := window }
    let view := viewOf s cfg.routing
    let drive := driveOf view v.manual
    let sensed := interpret cfg.polarity v.pinHigh
    let fresh := drive ≠ v.drive ∨ cfg.output ≠ v.cfg.output ∨ cfg.polarity ≠ v.cfg.polarity
    let bad := mismatch cfg.output drive sensed
    (cfg.output = .openDrain ∧ cfg.polarity = .activeHigh →
      x = .next (place .platform [0xA9, 0x01, 0x06, 0x50] s)) ∧
      (¬(cfg.output = .openDrain ∧ cfg.polarity = .activeHigh) →
        ∃ t, x = .next
            (place .platform (frame 0xA9 [if window = r.cfg.window then 0 else 1, BitVec.ofNat 8 window]) t) ∧
          (cfg = v.cfg → t = s) ∧
          (cfg ≠ v.cfg →
            t.lines.get l
              = { cfg := cfg, manual := v.manual, view := view, drive := drive, cause := causeOf view v.manual
                  pinOut := pinOutOf cfg.output cfg.polarity drive, pinHigh := v.pinHigh, sensed := sensed
                  external := if fresh then externalOf cfg.output drive sensed else v.external
                  stuck := if fresh then v.stuck && bad else v.stuck
                  window := if ¬fresh then v.window else if bad = false then none
                    else if v.stuck then v.window else some (Timer.start window) }) ∧
          (cfg ≠ v.cfg → drive ≠ v.drive → Raised .throttle t) ∧
          (s.LinesSafe → ∀ l', l' ≠ l → t.lines.get l' = s.lines.get l') ∧ t.withoutEnd = s.withoutEnd)

/-! ## Fault log and mode (chapter 9) -/

/-- An occurrence without a record of its pair appends one, raises FAULT and recomputes the summary; a recurrence counts on in
place, up to 255; the end of a condition makes its record not present; and CLEAR_FAULTS removes every record that is not a
present condition, keeps the others in their order, recomputes the summary and reports how many remain. Nothing else
changes (R142, R144 to R148). -/
def Obligations.FaultReportsReachTheLog : Prop :=
  (∀ (kind : FaultKind) (subject : Nat) (value : Option Int) (s : State),
    let t := occur kind subject value s
    let known := ∃ r ∈ s.faults, r.kind = kind ∧ r.subject = subject
    let fatal := kind = .zoneBlind ∨ kind = .lineStuck ∨ kind = .supplyTrip
    (¬known →
      t.faults = s.faults ++
          [{ kind := kind, subject := subject, severity := if fatal then .fatal else .warning
             present := if kind = .convOverrun then none else some true, count := 1, firstTime := s.uptime
             lastTime := s.uptime, firstValue := value }] ∧
        Raised .fault t ∧ t.severity = (if ∃ r ∈ t.faults, r.severity = .fatal then .fatal else .warning) ∧
        t.withoutLog = s.withoutLog) ∧
      (known →
        t = { s with
          faults := s.faults.map fun r =>
            if r.kind = kind ∧ r.subject = subject then
              { r with
                count := min 255 (r.count + 1), lastTime := s.uptime
                present := if kind = .convOverrun then r.present else some true }
            else r }) ∧
      endCondition kind subject s =
        { s with
          faults := s.faults.map fun r =>
            if r.kind = kind ∧ r.subject = subject then { r with present := some false } else r }) ∧
  (∀ s : State, s.inReset = false →
    let log := s.faults.filter fun r => r.present = some true
    exec (.clearFaults (s.call .system) []) s = .next (place .system [0x92, 0x01, 0x04, 0x69] s) ∧
    exec (.clearFaults (s.call .platform) []) s = .next
      (place .platform (frame 0x92 [0, BitVec.ofNat 8 log.length])
        { s with
          faults := log
          severity := if ∃ r ∈ log, r.severity = .fatal then .fatal else if log = [] then .clear else .warning }))

/-- ACTIVATE in ACTIVE replies OK; in SAFE its first failing check decides: a FATAL record, no report received, a shared
priority among arbitrated domains; otherwise the mode becomes ACTIVE with MODE raised and the column in use follows, and
hint, effective posture and caps stay. DEACTIVATE in SAFE replies OK and does nothing; in ACTIVE it leaves ACTIVE: mode,
column in use, the caps and the hint of Port S, and what follows from them (R37, R40, R113, R149 to R152, R154). -/
def Obligations.ActivateAndDeactivateSwitchTheMode : Prop :=
  (∀ s : State, s.inReset = false →
    let e := exec (.activate (s.call .platform) []) s
    let fatal := ∃ r ∈ s.faults, r.severity = .fatal
    let shared := ∃ a b : DomainId, a ≠ b ∧ (s.domains.get a).arbitrated = true ∧ (s.domains.get b).arbitrated = true ∧
      (s.domains.get a).priority = (s.domains.get b).priority
    exec (.activate (s.call .system) []) s = .next (place .system [0xC0, 0x01, 0x04, 0x3B] s) ∧
      (s.mode = .active → e = .next (place .platform [0xC0, 0x02, 0x00, 0x00, 0x3E] s)) ∧
      (s.mode = .safe → fatal → e = .next (place .platform [0xC0, 0x02, 0x05, 0x01, 0x38] s)) ∧
      (s.mode = .safe → ¬fatal → s.report.received = false →
        e = .next (place .platform [0xC0, 0x02, 0x05, 0x02, 0x37] s)) ∧
      (s.mode = .safe → ¬fatal → s.report.received = true → shared →
        e = .next (place .platform [0xC0, 0x02, 0x06, 0x03, 0x35] s)) ∧
      (s.mode = .safe → ¬fatal → s.report.received = true → ¬shared →
        ∃ t, e = .next (place .platform [0xC0, 0x02, 0x00, 0x00, 0x3E] t) ∧ t.mode = .active ∧
          t.column = (match s.effective with
            | .unsettled => .unsettled
            | .desk => .desk
            | .lap => .lap
            | .bag => .bag) ∧
          (∀ p, (t.notices.get p).pending.has .mode = true) ∧
          t.hint = s.hint ∧ t.effective = s.effective ∧ t.caps = s.caps ∧ t.withoutEvent = s.withoutEvent)) ∧
  (∀ s : State, s.inReset = false →
    exec (.deactivate (s.call .system) []) s = .next (place .system [0xC1, 0x01, 0x04, 0x3A] s) ∧
    ∃ t, exec (.deactivate (s.call .platform) []) s = .next (place .platform [0xC1, 0x01, 0x00, 0x3E] t) ∧
      (s.mode = .safe → t = s) ∧ FallsSafe s t ∧ t.withoutEvent = s.withoutEvent)

/-- The mode becomes ACTIVE by ACTIVATE only, and leaves ACTIVE by DEACTIVATE, by a reset, or in an event after which the
log holds a record of a FATAL kind (R149, R150, R152, R153). -/
def Obligations.ModeChangesOnlyAsNamed : Prop :=
  ∀ (c : Instr) (s t : State), exec c s = .next t →
    (s.mode = .safe → t.mode = .active → ∃ p body, c = .activate p body) ∧
      (s.mode = .active → t.mode = .safe →
        IsReset c ∨ (∃ p body, c = .deactivate p body) ∨ ∃ r ∈ t.faults, r.kind.fatal)

/-! ## The whole part -/

/-- At the end of reset every block holds its reset values, whatever it held: the strap and the pins are taken as they
are found, and what follows from them at once is drawn. Only the waiting commands and the model's free value stay, which
is the model's choice (log 5), as are the 0 of the watch's last power (log 17) and the empty sent bytes (log 10). The
pin of THR1 keeps the level found there although the part pulls it low, and its window timer starts where that level is
high (log 14) (R7, R15, R23, R45, R49, R54, R76, R92, R104, R113, R116, R128, R143, R163, R167). -/
def Obligations.ResetGivesTheResetValues : Prop :=
  ∀ (adrsel : Bool) (pins : PerInput Bool) (throttle : PerLine Bool) (s : State),
    let temperature := fun enabled : Bool =>
      ({ cfg := { enabled := enabled, kind := .diode, interval := 100, offset := 0, holdCount := 2, failValue := 1050 }
         state := if enabled then .starting else .disabled
         value := none, badRun := 0, firstBad := none, lastGood := none
         timer := if enabled then some ⟨0, 100⟩ else none } : TempChannel)
    let power : PowerChannel :=
      { interval := 2, holdCount := 3, state := .starting, value := none, badRun := 0, timer := ⟨0, 2⟩ }
    let input := fun (debounce : Nat) (high : Bool) =>
      ({ cfg := { polarity := .activeHigh, debounce := debounce, trigger := .both }
         pinHigh := high, state := .undetermined
         debouncing := some { timer := ⟨0, debounce⟩, tentative := high } } : InputLine)
    let zone := fun (enabled : Bool) (sources : List Source) (influence : DomainSet) =>
      ({ cfg :=
          { enabled := enabled, sources := sources, influence := influence, alpha := 64, interval := 1000
            hysteresis := 10, descentDwell := 3, tripMargin := 30 }
         ladder := [⟨30, 85⟩, ⟨15, 65⟩, ⟨0, 40⟩]
         state := if enabled then .starting else .off
         estimate := none, position := 0, held := 0, percent := 100, degraded := false, blind := false
         timer := if enabled then some ⟨0, 1000⟩ else none } : Zone)
    let account := fun limit : Nat =>
      ({ s := limit, b := limit, w := 0, capacity := 0, credit := 0, state := .sustained, percent := 100
         sEff := limit, bEff := limit, threshold := 1, allowance := limit } : Account)
    let domain := fun priority floor lmin : Nat =>
      ({ recover := 25, arbitrated := true, priority := priority, floor := floor, lmin := lmin
         tolerance := 10, aboveN := 5, belowM := 10, settleTime := 100 } : DomainRecord)
    let compliance : Compliance := { state := .normal, above := 0, below := 0, settle := none }
    let released := fun (routing : DomainSet) (high : Bool) =>
      ({ cfg := { routing := routing, output := .openDrain, polarity := .activeLow, window := 4 }
         manual := false
         view := { supplyTrip := false, zoneTrip := false, excess := false, floor := false }
         drive := false, cause := .none, pinOut := .highImpedance, pinHigh := high, sensed := !high
         external := !high, stuck := false, window := none } : ThrottleLine)
    let held := fun (routing : DomainSet) (high : Bool) =>
      ({ cfg := { routing := routing, output := .openDrain, polarity := .activeLow, window := 4 }
         manual := false
         view := { supplyTrip := false, zoneTrip := false, excess := false, floor := true }
         drive := true, cause := .floor, pinOut := .low, pinHigh := high, sensed := !high
         external := false, stuck := false, window := if high then some ⟨0, 4⟩ else none } : ThrottleLine)
    let skin : PerColumn Int := { safe := 430, unsettled := 410, desk := 480, lap := 430, bag := 400 }
    let notices : NoticePort := { pending := 0, mask := 0x1FFF, attention := false }
    let link : Link := { buffer := [], refused := 0, slot := none, sent := [] }
    exec (.reset (.ended adrsel) pins throttle) s = .next
      { uptime := 0
        temps := ⟨temperature true, temperature false, temperature false, temperature false, temperature false,
          temperature false, temperature false, temperature false⟩
        queue := [], converter := none, powers := ⟨power, power, power, power, power⟩, restFail := 20000
        inputs := ⟨input 50 pins.lid, input 20 pins.acin, input 500 pins.motion, input 200 pins.contact⟩
        candidate := none, dwell := none, committed := .unsettled, enterDwell := 1500, relaxDwell := 20000
        hint := none, effective := .unsettled
        profile :=
          { d0 :=
              { safe := ⟨8000, 8000, 0⟩, unsettled := ⟨10000, 15000, 10000⟩, desk := ⟨28000, 45000, 28000⟩
                lap := ⟨18000, 35000, 20000⟩, bag := ⟨8000, 12000, 5000⟩ }
            d1 :=
              { safe := ⟨5000, 5000, 0⟩, unsettled := ⟨8000, 10000, 5000⟩, desk := ⟨35000, 50000, 10000⟩
                lap := ⟨20000, 30000, 10000⟩, bag := ⟨5000, 8000, 5000⟩ }
            d2 :=
              { safe := ⟨10000, 10000, 0⟩, unsettled := ⟨15000, 15000, 0⟩, desk := ⟨45000, 45000, 0⟩
                lap := ⟨30000, 30000, 0⟩, bag := ⟨15000, 15000, 0⟩ } }
        skin := ⟨skin, skin, skin, skin⟩, column := .safe
        zones :=
          ⟨zone true [⟨.t0, 256⟩] ⟨true, true, false⟩, zone false [] ⟨false, false, false⟩,
            zone false [] ⟨false, false, false⟩, zone false [] ⟨false, false, false⟩⟩
        thermal := ⟨100, 100, 100⟩, accounts := ⟨account 8000, account 5000, account 10000⟩
        domains := ⟨domain 0 8000 4000, domain 1 5000 2000, domain 2 0 0⟩
        report := { rating := 0, derate := 100, battery := none, received := false }
        supplyCfg :=
          { margin := 3000, unknownRating := 45000, batteryDefault := 30000, tripPercent := 10, tripTime := 50 }
        supply :=
          { source := .battery, available := 30000, pool := 7000, demand := ⟨8000, 5000, 10000⟩
            share := ⟨some 7000, some 0, some 0⟩ }
        watch := { state := .clear, lastSys := 0 }, caps := ⟨⟨none, none⟩, ⟨none, none⟩, ⟨none, none⟩⟩
        contributors :=
          { d0 := { allowance := 8000, share := some 7000, capP := none, capS := none, percent := 100 }
            d1 := { allowance := 5000, share := some 0, capP := none, capS := none, percent := 100 }
            d2 := { allowance := 10000, share := some 0, capP := none, capS := none, percent := 100 } }
        grants :=
          { d0 := { limit := 7000, owner := .supply, floorApplied := false, changeCount := 0, changedAt := 0 }
            d1 := { limit := 2000, owner := .supply, floorApplied := true, changeCount := 0, changedAt := 0 }
            d2 := { limit := 0, owner := .supply, floorApplied := false, changeCount := 0, changedAt := 0 } }
        compliance := ⟨compliance, compliance, compliance⟩
        lines :=
          ⟨released ⟨true, false, false⟩ throttle.thr0, held ⟨false, true, false⟩ throttle.thr1,
            released ⟨false, false, true⟩ throttle.thr2, released ⟨false, false, false⟩ throttle.thr3⟩
        faults := [], severity := .clear, mode := .safe, notices := ⟨notices, notices⟩, links := ⟨link, link⟩
        adrsel := adrsel, inReset := false, schedule := s.schedule, pending := s.pending }

/-- While RST_N is low the part holds what reset leaves, no command but a reset has an effect, no clock runs, the throttle
outputs are high-impedance and the attention lines released; outside a reset the outputs are those of the line records and
of the notice unit. What a block holds meanwhile cannot be seen; that it is the state of the model's own reset, with its
free value and queue kept, is log 5 (R128, R159, R167, 00_scope.md section 6). -/
def Obligations.ResetHoldsThePart : Prop :=
  (∀ (pins : PerInput Bool) (throttle : PerLine Bool) (s : State), exec (.reset .low pins throttle) s
    = .next { State.reset with inReset := true, schedule := s.schedule, pending := s.pending }) ∧
  (∀ (c : Instr) (s : State), s.inReset = true → ¬IsReset c → exec c s = .next s) ∧
  (∀ s : State, s.inReset = true → s.pending = [] → step s = .next s) ∧
  (∀ (l : LineId) (s : State),
    throttlePin l s = if s.inReset then .highImpedance else (s.lines.get l).pinOut) ∧
  (∀ (p : Port) (s : State), attentionPulled p s = true ↔ s.inReset = false ∧ (s.notices.get p).attention = true) ∧
  ∀ s t : State, s.ResetSafe → step s = .next t → t.ResetSafe

/-- The part answers to 0x3A or, with ADRSEL found high, to 0x3B on Port P and to 0x4C on Port S. A transaction with another
address, the general call among them, or any while RST_N is low, changes nothing; and no transaction touches the other
port's buffer or slot (R167). -/
def Obligations.TransactionsElsewhereAreIgnored : Prop :=
  ∀ (c : Instr) (call : Call) (s : State), callOf c = some call →
    let own : BitVec 7 := match call.port with
      | .platform => if s.adrsel then 0x3B else 0x3A
      | .system => 0x4C
    s.call call.port = ⟨call.port, own⟩ ∧
      (s.inReset = true ∨ call.address ≠ own → exec c s = .next s) ∧
      ∀ t, exec c s = .next t → ∀ p, p ≠ call.port → t.links.get p = s.links.get p

/-- A raised kind is added to both pending sets, whatever is masked. A kind that is pending on a port stays so until a
CLEAR_NOTICES on that port that names it, or a reset, which empties both sets; and a port's mask set changes by
SET_NOTICE_MASK on that port or a reset only (R158, R160, R161). -/
def Obligations.NoticesStayUntilCleared : Prop :=
  (∀ (k k' : NoticeKind) (p : Port) (s : State),
      ((raise k s).notices.get p).pending.has k' = ((s.notices.get p).pending.has k' || decide (k' = k))) ∧
    ∀ (c : Instr) (p : Port) (s t : State), exec c s = .next t →
      (IsReset c → (t.notices.get p).pending = 0 ∧ (t.notices.get p).mask = 0x1FFF) ∧
        (∀ k, ¬IsReset c →
          (∀ call body, c = .clearNotices call body → call.port = p → (u16 body 0).testBit k.position = false) →
          (s.notices.get p).pending.has k = true → (t.notices.get p).pending.has k = true) ∧
        (¬IsReset c → (∀ call body, c = .setNoticeMask call body → call.port ≠ p) →
          (t.notices.get p).mask = (s.notices.get p).mask)

/-- A change that has a notice kind raises it on both ports: a grant record, the effective posture, a dropped hint, a ladder
position, a zone entering or leaving TRIPPED, a drive, a new fault record, the mode, an account's state, and a debounced
edge that the line's trigger admits, after a SET_INPUT its new one (log 25) (R32, R36 to R38, R62, R64, R83, R118, R133,
R144, R149, R156 to R158). -/
def Obligations.ChangesRaiseTheirNotices : Prop :=
  ∀ (c : Instr) (s t : State), exec c s = .next t → ¬IsReset c →
    (t.grants ≠ s.grants → Raised .grant t) ∧ (t.effective ≠ s.effective → Raised .posture t) ∧
      (s.hint.isSome = true → t.hint = none → (∀ p body, c ≠ .postureHint p body) → Raised .hintDropped t) ∧
      (∀ z, (t.zones.get z).position ≠ (s.zones.get z).position → Raised .ladder t) ∧
      (∀ z, ¬((t.zones.get z).state = .tripped ↔ (s.zones.get z).state = .tripped) → Raised .trip t) ∧
      (∀ l, (t.lines.get l).drive ≠ (s.lines.get l).drive → Raised .throttle t) ∧
      (∀ r ∈ t.faults, (∀ r' ∈ s.faults, (r'.kind, r'.subject) ≠ (r.kind, r.subject)) → Raised .fault t) ∧
      (t.mode ≠ s.mode → Raised .mode t) ∧
      (∀ d, (t.accounts.get d).state ≠ (s.accounts.get d).state → Raised .burst t) ∧
      ∀ l, (s.inputs.get l).state ≠ .undetermined → (t.inputs.get l).state ≠ (s.inputs.get l).state →
        (match (t.inputs.get l).cfg.trigger with
          | .none => False
          | .rise => (t.inputs.get l).state = .asserted
          | .fall => (t.inputs.get l).state = .deasserted
          | .both => True) →
        Raised (edgeNotice l) t

/-! ## Invariants that every step keeps -/

/-- Every invariant holds after reset, whatever the free value of the model (the pin levels are log 6's). -/
def Obligations.ResetMeetsTheInvariants : Prop :=
  State.reset.QueueSafe ∧ State.reset.ChannelsSafe ∧ State.reset.TemperaturesSafe ∧ State.reset.InputsSafe ∧
    State.reset.PostureSafe ∧ State.reset.SystemSafe ∧ State.reset.EntriesSafe ∧ State.reset.ZonesSafe ∧
    State.reset.AccountsSafe ∧ State.reset.GrantsSafe ∧ State.reset.LinesSafe ∧ State.reset.LogSafe ∧
    State.reset.ConditionsSafe ∧ State.reset.NoticesSafe ∧ State.reset.LinksSafe ∧ State.reset.ResetSafe

/-- The conversion queue never holds a channel twice, more than 8 entries, or the channel being converted; the channels'
fields stay those of their states, and only enabled channels wait or have a conversion that counts (R1 to R6, R8, R9, R13,
R15, R16). -/
def Obligations.EveryStepKeepsQueueAndChannels : Prop :=
  ∀ s t : State, s.QueueSafe → s.ChannelsSafe → step s = .next t → t.QueueSafe ∧ t.ChannelsSafe

/-- Every temperature value, fail value and zone estimate stays within −400 … 1500, and every domain entry satisfies
1000 ≤ S ≤ B ≤ 150000, W ≤ 64000 and S ≥ Lmin at every moment (R8, R44, R57, R59). -/
def Obligations.EveryStepKeepsRanges : Prop :=
  ∀ s t : State, step s = .next t →
    (s.TemperaturesSafe → t.TemperaturesSafe) ∧ (s.EntriesSafe → t.EntriesSafe)

/-- A debounce timer runs exactly while its line's debounced state differs from the interpreted level; the candidate follows the
debounced states, the effective posture the slot and the committed posture, and the column in use the mode and the
effective posture; in SAFE there is no cap and no hint of Port S, and a hint of Port S never stays below the committed
posture (R23, R24, R28, R30, R32, R34, R37, R38, R40, R113). -/
def Obligations.EveryStepKeepsPosture : Prop :=
  ∀ s t : State, step s = .next t →
    (s.InputsSafe → t.InputsSafe) ∧ (s.PostureSafe → t.PostureSafe) ∧ (s.SystemSafe → t.SystemSafe)

/-- A zone's fields stay those of its state, its degraded and blind flags follow its source channels, and every domain's
thermal percent is the least of its zones' (R54, R55, R60, R63 to R65, R68). -/
def Obligations.EveryStepKeepsTheZones : Prop :=
  ∀ s t : State, s.ChannelsSafe → s.ZonesSafe → step s = .next t → t.ZonesSafe

/-- Every account holds the entry of the column in use, its scaled limits, a credit within its capacity, and the state and
allowance that the state rule gives (R76 to R79, R81, R82, R84, R85, R88). -/
def Obligations.EveryStepKeepsTheAccounts : Prop :=
  ∀ s t : State, s.AccountsSafe → step s = .next t → t.AccountsSafe

/-- The allocation is what the arbiter's inputs give, the resolver's copies are what the blocks offered last, and every
grant record is what a resolution of the copies finds: no change is left unoffered (R69, R82, R96 to R103, R110, R116,
R117). -/
def Obligations.EveryStepKeepsTheGrants : Prop :=
  ∀ s t : State, s.GrantsSafe → step s = .next t → t.GrantsSafe

/-- Every line's view, drive, cause, pin, sensed level, external assertion and window timer follow the sources, the manual
level and the pin as they stand (R129 to R132, R135, R137, R138). -/
def Obligations.EveryStepKeepsTheLines : Prop :=
  ∀ s t : State, s.ZonesSafe → s.LinesSafe → step s = .next t → t.LinesSafe

/-- The fault log never holds two records of one kind and subject or more than 37, its summary is its greatest severity, and
in ACTIVE it holds no FATAL record (R142, R144, R145, R148, R149). -/
def Obligations.EveryStepKeepsTheLog : Prop :=
  ∀ s t : State, s.LogSafe → step s = .next t → t.LogSafe

/-- A condition's record is present in the log exactly while its owner's state is the one it reports (R10, R19, R62, R63,
R106, R107, R126, R139, R146). -/
def Obligations.EveryStepKeepsTheConditions : Prop :=
  ∀ s t : State, s.ChannelsSafe → s.ConditionsSafe → step s = .next t → t.ConditionsSafe

/-- Each attention line follows its port's sets, and each reply slot is empty or holds a whole reply frame (R159, R168,
R171, R172). -/
def Obligations.EveryStepKeepsPortsAndLinks : Prop :=
  ∀ s t : State, step s = .next t → (s.NoticesSafe → t.NoticesSafe) ∧ (s.LinksSafe → t.LinksSafe)
end

