-- ==== Sys2Proof/Laws/Encoding.lean ====
section
/-!
SUPPORT. Frames and the numbers in them: what a frame's parts are, and what a number written as bytes reads back as.
-/

namespace Sys2Proof

/-- Byte sums add up. -/
theorem byteSum_append (a b : List Byte) : byteSum (a ++ b) = byteSum a + byteSum b := by
  induction a with
  | nil => simp [byteSum]
  | cons x a ih => simp [byteSum, ih, BitVec.add_assoc]

/-- The byte sum as a number. -/
theorem toNat_byteSum (l : List Byte) : (byteSum l).toNat = (l.map BitVec.toNat).sum % 256 := by
  induction l with
  | nil => rfl
  | cons a l ih => simp [byteSum, BitVec.toNat_add, ih]

/-- A frame's bytes sum to a multiple of 256 (section 11.2). -/
@[simp] theorem byteSum_frame (kind : Byte) (body : List Byte) : byteSum (frame kind body) = 0 := by
  simp only [frame, byteSum_append]
  generalize byteSum (kind :: BitVec.ofNat 8 body.length :: body) = x
  simp [byteSum]

@[simp] theorem length_frame (kind : Byte) (body : List Byte) : (frame kind body).length = body.length + 3 := by
  simp [frame]

@[simp] theorem headD_frame (kind : Byte) (body : List Byte) : (frame kind body).headD 0 = kind := by simp [frame]

@[simp] theorem frameBody_frame (kind : Byte) (body : List Byte) : frameBody (frame kind body) = body := by
  simp [frame, frameBody]

@[simp] theorem kindOfCode_kindCode (kind : Kind) : kindOfCode (kindCode kind) = some kind := by cases kind <;> rfl

@[simp] theorem requestParts_requestOf (kind : Kind) (call : Call) (body : List Byte) :
    requestParts (requestOf kind call body) = some (kind, call, body) := by
  cases kind <;> rfl

namespace Machine

@[simp] theorem length_leBytes (size v : Nat) : (leBytes size v).length = size := by
  induction size generalizing v <;> simp_all [leBytes]

theorem u8_lt (b : List Byte) (i : Nat) : u8 b i < 256 := BitVec.isLt _

theorem leBytes_two (v : Nat) : leBytes 2 v = [BitVec.ofNat 8 v, BitVec.ofNat 8 (v / 256)] := rfl

theorem leBytes_four (v : Nat) :
    leBytes 4 v =
      [BitVec.ofNat 8 v, BitVec.ofNat 8 (v / 256), BitVec.ofNat 8 (v / 256 / 256),
        BitVec.ofNat 8 (v / 256 / 256 / 256)] := rfl

/-- A 2-byte number reads back as its last 16 bits. -/
theorem u16_leBytes (v : Nat) : u16 (leBytes 2 v) 0 = v % 65536 := by
  simp only [u16, u8, leBytes_two]
  simp
  omega

/-- A 4-byte number reads back as its last 32 bits. -/
theorem u32_leBytes (v : Nat) : u32 (leBytes 4 v) 0 = v % 4294967296 := by
  simp only [u32, u16, u8, leBytes_four]
  simp
  omega

end Machine

end Sys2Proof
end

