-- ==== Sys2Proof/Laws/Order.lean ====
section
/-!
SUPPORT. What `inAnyOrder` can do: every consequence is taken once, in some order, and only the free value changes between.
-/

namespace Sys2Proof.Machine

open Sys2Proof

/-- Everything a drawn order can do: a relation between what is left and the state that each taken consequence and each
change of the free value keeps holds at the end, with nothing left. -/
theorem drawOrder_spec (R : List (State → State) → State → Prop)
    (draw : ∀ todo s k, R todo s → R todo { s with schedule := k })
    (take : ∀ (todo : List (State → State)) i (h : i < todo.length) s, R todo s → R (todo.eraseIdx i) (todo[i] s)) :
    ∀ fuel todo s, todo.length ≤ fuel → R todo s → R [] (drawOrder fuel todo s) := by
  intro fuel
  induction fuel with
  | zero =>
    intro todo s hl h
    have : todo = [] := List.length_eq_zero_iff.mp (Nat.le_zero.mp hl)
    subst this
    exact h
  | succ n ih =>
    intro todo s hl h
    cases todo with
    | nil => exact h
    | cons f fs =>
      have hk : s.schedule % (f :: fs).length < (f :: fs).length := Nat.mod_lt _ (by simp)
      simp only [drawOrder]
      apply ih
      · rw [List.length_eraseIdx_of_lt hk]
        simp at hl ⊢
        omega
      · rw [List.getD_eq_getElem _ _ hk]
        exact take _ _ hk _ (draw _ _ _ h)

/-- Everything consequences in an open order can do. -/
theorem inAnyOrder_spec (R : List (State → State) → State → Prop)
    (draw : ∀ todo s k, R todo s → R todo { s with schedule := k })
    (take : ∀ (todo : List (State → State)) i (h : i < todo.length) s, R todo s → R (todo.eraseIdx i) (todo[i] s))
    (todo : List (State → State)) (s : State) (h : R todo s) : R [] (inAnyOrder todo s) :=
  drawOrder_spec R draw take _ todo s le_rfl h

/-- What every consequence keeps, whatever the free value, all of them in any order keep. -/
theorem inAnyOrder_keeps (P : State → Prop) (draw : ∀ s k, P s → P { s with schedule := k })
    (todo : List (State → State)) (each : ∀ f ∈ todo, ∀ s, P s → P (f s)) (s : State) (h : P s) :
    P (inAnyOrder todo s) := by
  have := inAnyOrder_spec (fun rest s => (∀ f ∈ rest, f ∈ todo) ∧ P s)
    (fun _ _ _ h => ⟨h.1, draw _ _ h.2⟩)
    (fun rest i hi s h =>
      ⟨fun f hf => h.1 f (List.mem_of_mem_eraseIdx hf), each _ (h.1 _ (List.getElem_mem hi)) _ h.2⟩)
    todo s ⟨fun _ h => h, h⟩
  exact this.2

/-- What no consequence changes, and the free value does not enter, is the same after all of them. -/
theorem inAnyOrder_same {α : Type} (p : State → α) (draw : ∀ s k, p { s with schedule := k } = p s)
    (todo : List (State → State)) (each : ∀ f ∈ todo, ∀ s, p (f s) = p s) (s : State) :
    p (inAnyOrder todo s) = p s :=
  inAnyOrder_keeps (fun t => p t = p s) (fun _ _ h => (draw _ _).trans h) todo
    (fun f hf _ h => (each f hf _).trans h) s rfl

/-- What one of the consequences brings about, and the others keep, holds after all of them. -/
theorem inAnyOrder_brings (P I : State → Prop) (drawP : ∀ s k, P s → P { s with schedule := k })
    (drawI : ∀ s k, I s → I { s with schedule := k }) (todo : List (State → State)) (g : State → State)
    (hg : g ∈ todo) (brings : ∀ s, I s → P (g s)) (each : ∀ f ∈ todo, ∀ s, I s → I (f s))
    (kept : ∀ f ∈ todo, ∀ s, I s → P s → P (f s)) (s : State) (h : I s) : P (inAnyOrder todo s) := by
  have := inAnyOrder_spec (fun rest s => (∀ f ∈ rest, f ∈ todo) ∧ I s ∧ (g ∈ rest ∨ P s))
    (fun _ _ _ h => ⟨h.1, drawI _ _ h.2.1, h.2.2.imp id (drawP _ _)⟩)
    (fun rest i hi s h => by
      refine ⟨fun f hf => h.1 f (List.mem_of_mem_eraseIdx hf),
        each _ (h.1 _ (List.getElem_mem hi)) _ h.2.1, ?_⟩
      rcases h.2.2 with hm | hp
      · rcases List.getElem_of_mem hm with ⟨j, hj, hjg⟩
        by_cases e : i = j
        · subst e
          right
          rw [hjg]
          exact brings _ h.2.1
        · left
          rw [List.mem_eraseIdx_iff_getElem]
          exact ⟨j, hj, fun h => e h.symm, hjg⟩
      · right
        exact kept _ (h.1 _ (List.getElem_mem hi)) _ h.2.1 hp)
    todo s ⟨fun _ h => h, h, .inl hg⟩
  rcases this.2.2 with h | h
  · cases h
  · exact h

end Sys2Proof.Machine
end

