-- ==== Sys2Proof/Laws/State.lean ====
section
/-!
SUPPORT. What each named update of the state gives in each field: one lemma per field per update, true by `rfl`.
-/

namespace Sys2Proof.Machine

open Sys2Proof

/-! ## n ms pass (log 2): `elapse` -/

@[simp] theorem elapse_uptime (n : Nat) (s : State) : (elapse n s).uptime = uptimeAfter n s.uptime := rfl
@[simp] theorem elapse_temps (n : Nat) (s : State) :
    (elapse n s).temps = s.temps.map fun c => { c with timer := c.timer.map (Timer.elapse n) } := rfl
@[simp] theorem elapse_queue (n : Nat) (s : State) : (elapse n s).queue = s.queue := rfl
@[simp] theorem elapse_converter (n : Nat) (s : State) :
    (elapse n s).converter = s.converter.map fun j => { j with timer := j.timer.elapse n } := rfl
@[simp] theorem elapse_powers (n : Nat) (s : State) :
    (elapse n s).powers = s.powers.map fun c => { c with timer := c.timer.elapse n } := rfl
@[simp] theorem elapse_restFail (n : Nat) (s : State) : (elapse n s).restFail = s.restFail := rfl
@[simp] theorem elapse_inputs (n : Nat) (s : State) :
    (elapse n s).inputs = s.inputs.map fun l =>
      { l with debouncing := l.debouncing.map fun d => { d with timer := d.timer.elapse n } } := rfl
@[simp] theorem elapse_candidate (n : Nat) (s : State) : (elapse n s).candidate = s.candidate := rfl
@[simp] theorem elapse_dwell (n : Nat) (s : State) : (elapse n s).dwell = s.dwell.map (Timer.elapse n) := rfl
@[simp] theorem elapse_committed (n : Nat) (s : State) : (elapse n s).committed = s.committed := rfl
@[simp] theorem elapse_enterDwell (n : Nat) (s : State) : (elapse n s).enterDwell = s.enterDwell := rfl
@[simp] theorem elapse_relaxDwell (n : Nat) (s : State) : (elapse n s).relaxDwell = s.relaxDwell := rfl
@[simp] theorem elapse_hint (n : Nat) (s : State) : (elapse n s).hint = s.hint := rfl
@[simp] theorem elapse_effective (n : Nat) (s : State) : (elapse n s).effective = s.effective := rfl
@[simp] theorem elapse_profile (n : Nat) (s : State) : (elapse n s).profile = s.profile := rfl
@[simp] theorem elapse_skin (n : Nat) (s : State) : (elapse n s).skin = s.skin := rfl
@[simp] theorem elapse_column (n : Nat) (s : State) : (elapse n s).column = s.column := rfl
@[simp] theorem elapse_zones (n : Nat) (s : State) :
    (elapse n s).zones = s.zones.map fun z => { z with timer := z.timer.map (Timer.elapse n) } := rfl
@[simp] theorem elapse_thermal (n : Nat) (s : State) : (elapse n s).thermal = s.thermal := rfl
@[simp] theorem elapse_accounts (n : Nat) (s : State) : (elapse n s).accounts = s.accounts := rfl
@[simp] theorem elapse_domains (n : Nat) (s : State) : (elapse n s).domains = s.domains := rfl
@[simp] theorem elapse_report (n : Nat) (s : State) : (elapse n s).report = s.report := rfl
@[simp] theorem elapse_supplyCfg (n : Nat) (s : State) : (elapse n s).supplyCfg = s.supplyCfg := rfl
@[simp] theorem elapse_supply (n : Nat) (s : State) : (elapse n s).supply = s.supply := rfl
@[simp] theorem elapse_watch (n : Nat) (s : State) :
    (elapse n s).watch = (match s.watch.state with
      | .timing t => { s.watch with state := .timing (t.elapse n) }
      | .clear => s.watch
      | .tripped => s.watch) := rfl
@[simp] theorem elapse_caps (n : Nat) (s : State) : (elapse n s).caps = s.caps := rfl
@[simp] theorem elapse_contributors (n : Nat) (s : State) : (elapse n s).contributors = s.contributors := rfl
@[simp] theorem elapse_grants (n : Nat) (s : State) : (elapse n s).grants = s.grants := rfl
@[simp] theorem elapse_compliance (n : Nat) (s : State) :
    (elapse n s).compliance = s.compliance.map fun c => { c with settle := c.settle.map (Timer.elapse n) } := rfl
@[simp] theorem elapse_lines (n : Nat) (s : State) :
    (elapse n s).lines = s.lines.map fun l => { l with window := l.window.map (Timer.elapse n) } := rfl
@[simp] theorem elapse_faults (n : Nat) (s : State) : (elapse n s).faults = s.faults := rfl
@[simp] theorem elapse_severity (n : Nat) (s : State) : (elapse n s).severity = s.severity := rfl
@[simp] theorem elapse_mode (n : Nat) (s : State) : (elapse n s).mode = s.mode := rfl
@[simp] theorem elapse_notices (n : Nat) (s : State) : (elapse n s).notices = s.notices := rfl
@[simp] theorem elapse_links (n : Nat) (s : State) : (elapse n s).links = s.links := rfl
@[simp] theorem elapse_adrsel (n : Nat) (s : State) : (elapse n s).adrsel = s.adrsel := rfl
@[simp] theorem elapse_inReset (n : Nat) (s : State) : (elapse n s).inReset = s.inReset := rfl
@[simp] theorem elapse_schedule (n : Nat) (s : State) : (elapse n s).schedule = s.schedule := rfl
@[simp] theorem elapse_pending (n : Nat) (s : State) : (elapse n s).pending = s.pending := rfl

/-! ## A kind is raised (R158): `raise` -/

@[simp] theorem raise_uptime (k : NoticeKind) (s : State) : (raise k s).uptime = s.uptime := rfl
@[simp] theorem raise_temps (k : NoticeKind) (s : State) : (raise k s).temps = s.temps := rfl
@[simp] theorem raise_queue (k : NoticeKind) (s : State) : (raise k s).queue = s.queue := rfl
@[simp] theorem raise_converter (k : NoticeKind) (s : State) : (raise k s).converter = s.converter := rfl
@[simp] theorem raise_powers (k : NoticeKind) (s : State) : (raise k s).powers = s.powers := rfl
@[simp] theorem raise_restFail (k : NoticeKind) (s : State) : (raise k s).restFail = s.restFail := rfl
@[simp] theorem raise_inputs (k : NoticeKind) (s : State) : (raise k s).inputs = s.inputs := rfl
@[simp] theorem raise_candidate (k : NoticeKind) (s : State) : (raise k s).candidate = s.candidate := rfl
@[simp] theorem raise_dwell (k : NoticeKind) (s : State) : (raise k s).dwell = s.dwell := rfl
@[simp] theorem raise_committed (k : NoticeKind) (s : State) : (raise k s).committed = s.committed := rfl
@[simp] theorem raise_enterDwell (k : NoticeKind) (s : State) : (raise k s).enterDwell = s.enterDwell := rfl
@[simp] theorem raise_relaxDwell (k : NoticeKind) (s : State) : (raise k s).relaxDwell = s.relaxDwell := rfl
@[simp] theorem raise_hint (k : NoticeKind) (s : State) : (raise k s).hint = s.hint := rfl
@[simp] theorem raise_effective (k : NoticeKind) (s : State) : (raise k s).effective = s.effective := rfl
@[simp] theorem raise_profile (k : NoticeKind) (s : State) : (raise k s).profile = s.profile := rfl
@[simp] theorem raise_skin (k : NoticeKind) (s : State) : (raise k s).skin = s.skin := rfl
@[simp] theorem raise_column (k : NoticeKind) (s : State) : (raise k s).column = s.column := rfl
@[simp] theorem raise_zones (k : NoticeKind) (s : State) : (raise k s).zones = s.zones := rfl
@[simp] theorem raise_thermal (k : NoticeKind) (s : State) : (raise k s).thermal = s.thermal := rfl
@[simp] theorem raise_accounts (k : NoticeKind) (s : State) : (raise k s).accounts = s.accounts := rfl
@[simp] theorem raise_domains (k : NoticeKind) (s : State) : (raise k s).domains = s.domains := rfl
@[simp] theorem raise_report (k : NoticeKind) (s : State) : (raise k s).report = s.report := rfl
@[simp] theorem raise_supplyCfg (k : NoticeKind) (s : State) : (raise k s).supplyCfg = s.supplyCfg := rfl
@[simp] theorem raise_supply (k : NoticeKind) (s : State) : (raise k s).supply = s.supply := rfl
@[simp] theorem raise_watch (k : NoticeKind) (s : State) : (raise k s).watch = s.watch := rfl
@[simp] theorem raise_caps (k : NoticeKind) (s : State) : (raise k s).caps = s.caps := rfl
@[simp] theorem raise_contributors (k : NoticeKind) (s : State) : (raise k s).contributors = s.contributors := rfl
@[simp] theorem raise_grants (k : NoticeKind) (s : State) : (raise k s).grants = s.grants := rfl
@[simp] theorem raise_compliance (k : NoticeKind) (s : State) : (raise k s).compliance = s.compliance := rfl
@[simp] theorem raise_lines (k : NoticeKind) (s : State) : (raise k s).lines = s.lines := rfl
@[simp] theorem raise_faults (k : NoticeKind) (s : State) : (raise k s).faults = s.faults := rfl
@[simp] theorem raise_severity (k : NoticeKind) (s : State) : (raise k s).severity = s.severity := rfl
@[simp] theorem raise_mode (k : NoticeKind) (s : State) : (raise k s).mode = s.mode := rfl
@[simp] theorem raise_notices (k : NoticeKind) (s : State) :
    (raise k s).notices = s.notices.map (NoticePort.raise k) := rfl
@[simp] theorem raise_links (k : NoticeKind) (s : State) : (raise k s).links = s.links := rfl
@[simp] theorem raise_adrsel (k : NoticeKind) (s : State) : (raise k s).adrsel = s.adrsel := rfl
@[simp] theorem raise_inReset (k : NoticeKind) (s : State) : (raise k s).inReset = s.inReset := rfl
@[simp] theorem raise_schedule (k : NoticeKind) (s : State) : (raise k s).schedule = s.schedule := rfl
@[simp] theorem raise_pending (k : NoticeKind) (s : State) : (raise k s).pending = s.pending := rfl

/-! ## A condition ends (R146): `endCondition` -/

@[simp] theorem endCondition_uptime (kind : FaultKind) (subject : Nat) (s : State) :
    (endCondition kind subject s).uptime = s.uptime := rfl
@[simp] theorem endCondition_temps (kind : FaultKind) (subject : Nat) (s : State) :
    (endCondition kind subject s).temps = s.temps := rfl
@[simp] theorem endCondition_queue (kind : FaultKind) (subject : Nat) (s : State) :
    (endCondition kind subject s).queue = s.queue := rfl
@[simp] theorem endCondition_converter (kind : FaultKind) (subject : Nat) (s : State) :
    (endCondition kind subject s).converter = s.converter := rfl
@[simp] theorem endCondition_powers (kind : FaultKind) (subject : Nat) (s : State) :
    (endCondition kind subject s).powers = s.powers := rfl
@[simp] theorem endCondition_restFail (kind : FaultKind) (subject : Nat) (s : State) :
    (endCondition kind subject s).restFail = s.restFail := rfl
@[simp] theorem endCondition_inputs (kind : FaultKind) (subject : Nat) (s : State) :
    (endCondition kind subject s).inputs = s.inputs := rfl
@[simp] theorem endCondition_candidate (kind : FaultKind) (subject : Nat) (s : State) :
    (endCondition kind subject s).candidate = s.candidate := rfl
@[simp] theorem endCondition_dwell (kind : FaultKind) (subject : Nat) (s : State) :
    (endCondition kind subject s).dwell = s.dwell := rfl
@[simp] theorem endCondition_committed (kind : FaultKind) (subject : Nat) (s : State) :
    (endCondition kind subject s).committed = s.committed := rfl
@[simp] theorem endCondition_enterDwell (kind : FaultKind) (subject : Nat) (s : State) :
    (endCondition kind subject s).enterDwell = s.enterDwell := rfl
@[simp] theorem endCondition_relaxDwell (kind : FaultKind) (subject : Nat) (s : State) :
    (endCondition kind subject s).relaxDwell = s.relaxDwell := rfl
@[simp] theorem endCondition_hint (kind : FaultKind) (subject : Nat) (s : State) :
    (endCondition kind subject s).hint = s.hint := rfl
@[simp] theorem endCondition_effective (kind : FaultKind) (subject : Nat) (s : State) :
    (endCondition kind subject s).effective = s.effective := rfl
@[simp] theorem endCondition_profile (kind : FaultKind) (subject : Nat) (s : State) :
    (endCondition kind subject s).profile = s.profile := rfl
@[simp] theorem endCondition_skin (kind : FaultKind) (subject : Nat) (s : State) :
    (endCondition kind subject s).skin = s.skin := rfl
@[simp] theorem endCondition_column (kind : FaultKind) (subject : Nat) (s : State) :
    (endCondition kind subject s).column = s.column := rfl
@[simp] theorem endCondition_zones (kind : FaultKind) (subject : Nat) (s : State) :
    (endCondition kind subject s).zones = s.zones := rfl
@[simp] theorem endCondition_thermal (kind : FaultKind) (subject : Nat) (s : State) :
    (endCondition kind subject s).thermal = s.thermal := rfl
@[simp] theorem endCondition_accounts (kind : FaultKind) (subject : Nat) (s : State) :
    (endCondition kind subject s).accounts = s.accounts := rfl
@[simp] theorem endCondition_domains (kind : FaultKind) (subject : Nat) (s : State) :
    (endCondition kind subject s).domains = s.domains := rfl
@[simp] theorem endCondition_report (kind : FaultKind) (subject : Nat) (s : State) :
    (endCondition kind subject s).report = s.report := rfl
@[simp] theorem endCondition_supplyCfg (kind : FaultKind) (subject : Nat) (s : State) :
    (endCondition kind subject s).supplyCfg = s.supplyCfg := rfl
@[simp] theorem endCondition_supply (kind : FaultKind) (subject : Nat) (s : State) :
    (endCondition kind subject s).supply = s.supply := rfl
@[simp] theorem endCondition_watch (kind : FaultKind) (subject : Nat) (s : State) :
    (endCondition kind subject s).watch = s.watch := rfl
@[simp] theorem endCondition_caps (kind : FaultKind) (subject : Nat) (s : State) :
    (endCondition kind subject s).caps = s.caps := rfl
@[simp] theorem endCondition_contributors (kind : FaultKind) (subject : Nat) (s : State) :
    (endCondition kind subject s).contributors = s.contributors := rfl
@[simp] theorem endCondition_grants (kind : FaultKind) (subject : Nat) (s : State) :
    (endCondition kind subject s).grants = s.grants := rfl
@[simp] theorem endCondition_compliance (kind : FaultKind) (subject : Nat) (s : State) :
    (endCondition kind subject s).compliance = s.compliance := rfl
@[simp] theorem endCondition_lines (kind : FaultKind) (subject : Nat) (s : State) :
    (endCondition kind subject s).lines = s.lines := rfl
@[simp] theorem endCondition_faults (kind : FaultKind) (subject : Nat) (s : State) :
    (endCondition kind subject s).faults = s.faults.map fun r => if r.isOf kind subject then { r with present := some false } else r := rfl
@[simp] theorem endCondition_severity (kind : FaultKind) (subject : Nat) (s : State) :
    (endCondition kind subject s).severity = s.severity := rfl
@[simp] theorem endCondition_mode (kind : FaultKind) (subject : Nat) (s : State) :
    (endCondition kind subject s).mode = s.mode := rfl
@[simp] theorem endCondition_notices (kind : FaultKind) (subject : Nat) (s : State) :
    (endCondition kind subject s).notices = s.notices := rfl
@[simp] theorem endCondition_links (kind : FaultKind) (subject : Nat) (s : State) :
    (endCondition kind subject s).links = s.links := rfl
@[simp] theorem endCondition_adrsel (kind : FaultKind) (subject : Nat) (s : State) :
    (endCondition kind subject s).adrsel = s.adrsel := rfl
@[simp] theorem endCondition_inReset (kind : FaultKind) (subject : Nat) (s : State) :
    (endCondition kind subject s).inReset = s.inReset := rfl
@[simp] theorem endCondition_schedule (kind : FaultKind) (subject : Nat) (s : State) :
    (endCondition kind subject s).schedule = s.schedule := rfl
@[simp] theorem endCondition_pending (kind : FaultKind) (subject : Nat) (s : State) :
    (endCondition kind subject s).pending = s.pending := rfl

/-! ## A reply is placed (R168, R172): `place` -/

@[simp] theorem place_uptime (port : Port) (bytes : List Byte) (s : State) :
    (place port bytes s).uptime = s.uptime := rfl
@[simp] theorem place_temps (port : Port) (bytes : List Byte) (s : State) : (place port bytes s).temps = s.temps := rfl
@[simp] theorem place_queue (port : Port) (bytes : List Byte) (s : State) : (place port bytes s).queue = s.queue := rfl
@[simp] theorem place_converter (port : Port) (bytes : List Byte) (s : State) :
    (place port bytes s).converter = s.converter := rfl
@[simp] theorem place_powers (port : Port) (bytes : List Byte) (s : State) :
    (place port bytes s).powers = s.powers := rfl
@[simp] theorem place_restFail (port : Port) (bytes : List Byte) (s : State) :
    (place port bytes s).restFail = s.restFail := rfl
@[simp] theorem place_inputs (port : Port) (bytes : List Byte) (s : State) :
    (place port bytes s).inputs = s.inputs := rfl
@[simp] theorem place_candidate (port : Port) (bytes : List Byte) (s : State) :
    (place port bytes s).candidate = s.candidate := rfl
@[simp] theorem place_dwell (port : Port) (bytes : List Byte) (s : State) : (place port bytes s).dwell = s.dwell := rfl
@[simp] theorem place_committed (port : Port) (bytes : List Byte) (s : State) :
    (place port bytes s).committed = s.committed := rfl
@[simp] theorem place_enterDwell (port : Port) (bytes : List Byte) (s : State) :
    (place port bytes s).enterDwell = s.enterDwell := rfl
@[simp] theorem place_relaxDwell (port : Port) (bytes : List Byte) (s : State) :
    (place port bytes s).relaxDwell = s.relaxDwell := rfl
@[simp] theorem place_hint (port : Port) (bytes : List Byte) (s : State) : (place port bytes s).hint = s.hint := rfl
@[simp] theorem place_effective (port : Port) (bytes : List Byte) (s : State) :
    (place port bytes s).effective = s.effective := rfl
@[simp] theorem place_profile (port : Port) (bytes : List Byte) (s : State) :
    (place port bytes s).profile = s.profile := rfl
@[simp] theorem place_skin (port : Port) (bytes : List Byte) (s : State) : (place port bytes s).skin = s.skin := rfl
@[simp] theorem place_column (port : Port) (bytes : List Byte) (s : State) :
    (place port bytes s).column = s.column := rfl
@[simp] theorem place_zones (port : Port) (bytes : List Byte) (s : State) : (place port bytes s).zones = s.zones := rfl
@[simp] theorem place_thermal (port : Port) (bytes : List Byte) (s : State) :
    (place port bytes s).thermal = s.thermal := rfl
@[simp] theorem place_accounts (port : Port) (bytes : List Byte) (s : State) :
    (place port bytes s).accounts = s.accounts := rfl
@[simp] theorem place_domains (port : Port) (bytes : List Byte) (s : State) :
    (place port bytes s).domains = s.domains := rfl
@[simp] theorem place_report (port : Port) (bytes : List Byte) (s : State) :
    (place port bytes s).report = s.report := rfl
@[simp] theorem place_supplyCfg (port : Port) (bytes : List Byte) (s : State) :
    (place port bytes s).supplyCfg = s.supplyCfg := rfl
@[simp] theorem place_supply (port : Port) (bytes : List Byte) (s : State) :
    (place port bytes s).supply = s.supply := rfl
@[simp] theorem place_watch (port : Port) (bytes : List Byte) (s : State) : (place port bytes s).watch = s.watch := rfl
@[simp] theorem place_caps (port : Port) (bytes : List Byte) (s : State) : (place port bytes s).caps = s.caps := rfl
@[simp] theorem place_contributors (port : Port) (bytes : List Byte) (s : State) :
    (place port bytes s).contributors = s.contributors := rfl
@[simp] theorem place_grants (port : Port) (bytes : List Byte) (s : State) :
    (place port bytes s).grants = s.grants := rfl
@[simp] theorem place_compliance (port : Port) (bytes : List Byte) (s : State) :
    (place port bytes s).compliance = s.compliance := rfl
@[simp] theorem place_lines (port : Port) (bytes : List Byte) (s : State) : (place port bytes s).lines = s.lines := rfl
@[simp] theorem place_faults (port : Port) (bytes : List Byte) (s : State) :
    (place port bytes s).faults = s.faults := rfl
@[simp] theorem place_severity (port : Port) (bytes : List Byte) (s : State) :
    (place port bytes s).severity = s.severity := rfl
@[simp] theorem place_mode (port : Port) (bytes : List Byte) (s : State) : (place port bytes s).mode = s.mode := rfl
@[simp] theorem place_notices (port : Port) (bytes : List Byte) (s : State) :
    (place port bytes s).notices = s.notices := rfl
@[simp] theorem place_links (port : Port) (bytes : List Byte) (s : State) :
    (place port bytes s).links = s.links.set port { s.links.get port with buffer := [], refused := 0, slot := some bytes } := rfl
@[simp] theorem place_adrsel (port : Port) (bytes : List Byte) (s : State) :
    (place port bytes s).adrsel = s.adrsel := rfl
@[simp] theorem place_inReset (port : Port) (bytes : List Byte) (s : State) :
    (place port bytes s).inReset = s.inReset := rfl
@[simp] theorem place_schedule (port : Port) (bytes : List Byte) (s : State) :
    (place port bytes s).schedule = s.schedule := rfl
@[simp] theorem place_pending (port : Port) (bytes : List Byte) (s : State) :
    (place port bytes s).pending = s.pending := rfl

/-! ## Data bytes are received (R168): `receiveWrite` -/

@[simp] theorem receiveWrite_uptime (port : Port) (bytes : List Byte) (s : State) :
    (receiveWrite port bytes s).uptime = s.uptime := rfl
@[simp] theorem receiveWrite_temps (port : Port) (bytes : List Byte) (s : State) :
    (receiveWrite port bytes s).temps = s.temps := rfl
@[simp] theorem receiveWrite_queue (port : Port) (bytes : List Byte) (s : State) :
    (receiveWrite port bytes s).queue = s.queue := rfl
@[simp] theorem receiveWrite_converter (port : Port) (bytes : List Byte) (s : State) :
    (receiveWrite port bytes s).converter = s.converter := rfl
@[simp] theorem receiveWrite_powers (port : Port) (bytes : List Byte) (s : State) :
    (receiveWrite port bytes s).powers = s.powers := rfl
@[simp] theorem receiveWrite_restFail (port : Port) (bytes : List Byte) (s : State) :
    (receiveWrite port bytes s).restFail = s.restFail := rfl
@[simp] theorem receiveWrite_inputs (port : Port) (bytes : List Byte) (s : State) :
    (receiveWrite port bytes s).inputs = s.inputs := rfl
@[simp] theorem receiveWrite_candidate (port : Port) (bytes : List Byte) (s : State) :
    (receiveWrite port bytes s).candidate = s.candidate := rfl
@[simp] theorem receiveWrite_dwell (port : Port) (bytes : List Byte) (s : State) :
    (receiveWrite port bytes s).dwell = s.dwell := rfl
@[simp] theorem receiveWrite_committed (port : Port) (bytes : List Byte) (s : State) :
    (receiveWrite port bytes s).committed = s.committed := rfl
@[simp] theorem receiveWrite_enterDwell (port : Port) (bytes : List Byte) (s : State) :
    (receiveWrite port bytes s).enterDwell = s.enterDwell := rfl
@[simp] theorem receiveWrite_relaxDwell (port : Port) (bytes : List Byte) (s : State) :
    (receiveWrite port bytes s).relaxDwell = s.relaxDwell := rfl
@[simp] theorem receiveWrite_hint (port : Port) (bytes : List Byte) (s : State) :
    (receiveWrite port bytes s).hint = s.hint := rfl
@[simp] theorem receiveWrite_effective (port : Port) (bytes : List Byte) (s : State) :
    (receiveWrite port bytes s).effective = s.effective := rfl
@[simp] theorem receiveWrite_profile (port : Port) (bytes : List Byte) (s : State) :
    (receiveWrite port bytes s).profile = s.profile := rfl
@[simp] theorem receiveWrite_skin (port : Port) (bytes : List Byte) (s : State) :
    (receiveWrite port bytes s).skin = s.skin := rfl
@[simp] theorem receiveWrite_column (port : Port) (bytes : List Byte) (s : State) :
    (receiveWrite port bytes s).column = s.column := rfl
@[simp] theorem receiveWrite_zones (port : Port) (bytes : List Byte) (s : State) :
    (receiveWrite port bytes s).zones = s.zones := rfl
@[simp] theorem receiveWrite_thermal (port : Port) (bytes : List Byte) (s : State) :
    (receiveWrite port bytes s).thermal = s.thermal := rfl
@[simp] theorem receiveWrite_accounts (port : Port) (bytes : List Byte) (s : State) :
    (receiveWrite port bytes s).accounts = s.accounts := rfl
@[simp] theorem receiveWrite_domains (port : Port) (bytes : List Byte) (s : State) :
    (receiveWrite port bytes s).domains = s.domains := rfl
@[simp] theorem receiveWrite_report (port : Port) (bytes : List Byte) (s : State) :
    (receiveWrite port bytes s).report = s.report := rfl
@[simp] theorem receiveWrite_supplyCfg (port : Port) (bytes : List Byte) (s : State) :
    (receiveWrite port bytes s).supplyCfg = s.supplyCfg := rfl
@[simp] theorem receiveWrite_supply (port : Port) (bytes : List Byte) (s : State) :
    (receiveWrite port bytes s).supply = s.supply := rfl
@[simp] theorem receiveWrite_watch (port : Port) (bytes : List Byte) (s : State) :
    (receiveWrite port bytes s).watch = s.watch := rfl
@[simp] theorem receiveWrite_caps (port : Port) (bytes : List Byte) (s : State) :
    (receiveWrite port bytes s).caps = s.caps := rfl
@[simp] theorem receiveWrite_contributors (port : Port) (bytes : List Byte) (s : State) :
    (receiveWrite port bytes s).contributors = s.contributors := rfl
@[simp] theorem receiveWrite_grants (port : Port) (bytes : List Byte) (s : State) :
    (receiveWrite port bytes s).grants = s.grants := rfl
@[simp] theorem receiveWrite_compliance (port : Port) (bytes : List Byte) (s : State) :
    (receiveWrite port bytes s).compliance = s.compliance := rfl
@[simp] theorem receiveWrite_lines (port : Port) (bytes : List Byte) (s : State) :
    (receiveWrite port bytes s).lines = s.lines := rfl
@[simp] theorem receiveWrite_faults (port : Port) (bytes : List Byte) (s : State) :
    (receiveWrite port bytes s).faults = s.faults := rfl
@[simp] theorem receiveWrite_severity (port : Port) (bytes : List Byte) (s : State) :
    (receiveWrite port bytes s).severity = s.severity := rfl
@[simp] theorem receiveWrite_mode (port : Port) (bytes : List Byte) (s : State) :
    (receiveWrite port bytes s).mode = s.mode := rfl
@[simp] theorem receiveWrite_notices (port : Port) (bytes : List Byte) (s : State) :
    (receiveWrite port bytes s).notices = s.notices := rfl
@[simp] theorem receiveWrite_links (port : Port) (bytes : List Byte) (s : State) :
    (receiveWrite port bytes s).links = s.links.set port ((s.links.get port).receiveAll bytes) := rfl
@[simp] theorem receiveWrite_adrsel (port : Port) (bytes : List Byte) (s : State) :
    (receiveWrite port bytes s).adrsel = s.adrsel := rfl
@[simp] theorem receiveWrite_inReset (port : Port) (bytes : List Byte) (s : State) :
    (receiveWrite port bytes s).inReset = s.inReset := rfl
@[simp] theorem receiveWrite_schedule (port : Port) (bytes : List Byte) (s : State) :
    (receiveWrite port bytes s).schedule = s.schedule := rfl
@[simp] theorem receiveWrite_pending (port : Port) (bytes : List Byte) (s : State) :
    (receiveWrite port bytes s).pending = s.pending := rfl

/-! ## A malformed write is refused (R168, R172): `refuseWrite` -/

@[simp] theorem refuseWrite_uptime (port : Port) (s : State) : (refuseWrite port s).uptime = s.uptime := rfl
@[simp] theorem refuseWrite_temps (port : Port) (s : State) : (refuseWrite port s).temps = s.temps := rfl
@[simp] theorem refuseWrite_queue (port : Port) (s : State) : (refuseWrite port s).queue = s.queue := rfl
@[simp] theorem refuseWrite_converter (port : Port) (s : State) : (refuseWrite port s).converter = s.converter := rfl
@[simp] theorem refuseWrite_powers (port : Port) (s : State) : (refuseWrite port s).powers = s.powers := rfl
@[simp] theorem refuseWrite_restFail (port : Port) (s : State) : (refuseWrite port s).restFail = s.restFail := rfl
@[simp] theorem refuseWrite_inputs (port : Port) (s : State) : (refuseWrite port s).inputs = s.inputs := rfl
@[simp] theorem refuseWrite_candidate (port : Port) (s : State) : (refuseWrite port s).candidate = s.candidate := rfl
@[simp] theorem refuseWrite_dwell (port : Port) (s : State) : (refuseWrite port s).dwell = s.dwell := rfl
@[simp] theorem refuseWrite_committed (port : Port) (s : State) : (refuseWrite port s).committed = s.committed := rfl
@[simp] theorem refuseWrite_enterDwell (port : Port) (s : State) : (refuseWrite port s).enterDwell = s.enterDwell := rfl
@[simp] theorem refuseWrite_relaxDwell (port : Port) (s : State) : (refuseWrite port s).relaxDwell = s.relaxDwell := rfl
@[simp] theorem refuseWrite_hint (port : Port) (s : State) : (refuseWrite port s).hint = s.hint := rfl
@[simp] theorem refuseWrite_effective (port : Port) (s : State) : (refuseWrite port s).effective = s.effective := rfl
@[simp] theorem refuseWrite_profile (port : Port) (s : State) : (refuseWrite port s).profile = s.profile := rfl
@[simp] theorem refuseWrite_skin (port : Port) (s : State) : (refuseWrite port s).skin = s.skin := rfl
@[simp] theorem refuseWrite_column (port : Port) (s : State) : (refuseWrite port s).column = s.column := rfl
@[simp] theorem refuseWrite_zones (port : Port) (s : State) : (refuseWrite port s).zones = s.zones := rfl
@[simp] theorem refuseWrite_thermal (port : Port) (s : State) : (refuseWrite port s).thermal = s.thermal := rfl
@[simp] theorem refuseWrite_accounts (port : Port) (s : State) : (refuseWrite port s).accounts = s.accounts := rfl
@[simp] theorem refuseWrite_domains (port : Port) (s : State) : (refuseWrite port s).domains = s.domains := rfl
@[simp] theorem refuseWrite_report (port : Port) (s : State) : (refuseWrite port s).report = s.report := rfl
@[simp] theorem refuseWrite_supplyCfg (port : Port) (s : State) : (refuseWrite port s).supplyCfg = s.supplyCfg := rfl
@[simp] theorem refuseWrite_supply (port : Port) (s : State) : (refuseWrite port s).supply = s.supply := rfl
@[simp] theorem refuseWrite_watch (port : Port) (s : State) : (refuseWrite port s).watch = s.watch := rfl
@[simp] theorem refuseWrite_caps (port : Port) (s : State) : (refuseWrite port s).caps = s.caps := rfl
@[simp] theorem refuseWrite_contributors (port : Port) (s : State) :
    (refuseWrite port s).contributors = s.contributors := rfl
@[simp] theorem refuseWrite_grants (port : Port) (s : State) : (refuseWrite port s).grants = s.grants := rfl
@[simp] theorem refuseWrite_compliance (port : Port) (s : State) : (refuseWrite port s).compliance = s.compliance := rfl
@[simp] theorem refuseWrite_lines (port : Port) (s : State) : (refuseWrite port s).lines = s.lines := rfl
@[simp] theorem refuseWrite_faults (port : Port) (s : State) : (refuseWrite port s).faults = s.faults := rfl
@[simp] theorem refuseWrite_severity (port : Port) (s : State) : (refuseWrite port s).severity = s.severity := rfl
@[simp] theorem refuseWrite_mode (port : Port) (s : State) : (refuseWrite port s).mode = s.mode := rfl
@[simp] theorem refuseWrite_notices (port : Port) (s : State) : (refuseWrite port s).notices = s.notices := rfl
@[simp] theorem refuseWrite_links (port : Port) (s : State) :
    (refuseWrite port s).links = s.links.set port { s.links.get port with buffer := [], slot := some badFrameReply } := rfl
@[simp] theorem refuseWrite_adrsel (port : Port) (s : State) : (refuseWrite port s).adrsel = s.adrsel := rfl
@[simp] theorem refuseWrite_inReset (port : Port) (s : State) : (refuseWrite port s).inReset = s.inReset := rfl
@[simp] theorem refuseWrite_schedule (port : Port) (s : State) : (refuseWrite port s).schedule = s.schedule := rfl
@[simp] theorem refuseWrite_pending (port : Port) (s : State) : (refuseWrite port s).pending = s.pending := rfl

/-! ## A request is answered (R171): `answer` -/

@[simp] theorem answer_uptime (port : Port) (kind : Kind) (r : Reply) (s : State) :
    (answer port kind r s).uptime = s.uptime := rfl
@[simp] theorem answer_temps (port : Port) (kind : Kind) (r : Reply) (s : State) :
    (answer port kind r s).temps = s.temps := rfl
@[simp] theorem answer_queue (port : Port) (kind : Kind) (r : Reply) (s : State) :
    (answer port kind r s).queue = s.queue := rfl
@[simp] theorem answer_converter (port : Port) (kind : Kind) (r : Reply) (s : State) :
    (answer port kind r s).converter = s.converter := rfl
@[simp] theorem answer_powers (port : Port) (kind : Kind) (r : Reply) (s : State) :
    (answer port kind r s).powers = s.powers := rfl
@[simp] theorem answer_restFail (port : Port) (kind : Kind) (r : Reply) (s : State) :
    (answer port kind r s).restFail = s.restFail := rfl
@[simp] theorem answer_inputs (port : Port) (kind : Kind) (r : Reply) (s : State) :
    (answer port kind r s).inputs = s.inputs := rfl
@[simp] theorem answer_candidate (port : Port) (kind : Kind) (r : Reply) (s : State) :
    (answer port kind r s).candidate = s.candidate := rfl
@[simp] theorem answer_dwell (port : Port) (kind : Kind) (r : Reply) (s : State) :
    (answer port kind r s).dwell = s.dwell := rfl
@[simp] theorem answer_committed (port : Port) (kind : Kind) (r : Reply) (s : State) :
    (answer port kind r s).committed = s.committed := rfl
@[simp] theorem answer_enterDwell (port : Port) (kind : Kind) (r : Reply) (s : State) :
    (answer port kind r s).enterDwell = s.enterDwell := rfl
@[simp] theorem answer_relaxDwell (port : Port) (kind : Kind) (r : Reply) (s : State) :
    (answer port kind r s).relaxDwell = s.relaxDwell := rfl
@[simp] theorem answer_hint (port : Port) (kind : Kind) (r : Reply) (s : State) :
    (answer port kind r s).hint = s.hint := rfl
@[simp] theorem answer_effective (port : Port) (kind : Kind) (r : Reply) (s : State) :
    (answer port kind r s).effective = s.effective := rfl
@[simp] theorem answer_profile (port : Port) (kind : Kind) (r : Reply) (s : State) :
    (answer port kind r s).profile = s.profile := rfl
@[simp] theorem answer_skin (port : Port) (kind : Kind) (r : Reply) (s : State) :
    (answer port kind r s).skin = s.skin := rfl
@[simp] theorem answer_column (port : Port) (kind : Kind) (r : Reply) (s : State) :
    (answer port kind r s).column = s.column := rfl
@[simp] theorem answer_zones (port : Port) (kind : Kind) (r : Reply) (s : State) :
    (answer port kind r s).zones = s.zones := rfl
@[simp] theorem answer_thermal (port : Port) (kind : Kind) (r : Reply) (s : State) :
    (answer port kind r s).thermal = s.thermal := rfl
@[simp] theorem answer_accounts (port : Port) (kind : Kind) (r : Reply) (s : State) :
    (answer port kind r s).accounts = s.accounts := rfl
@[simp] theorem answer_domains (port : Port) (kind : Kind) (r : Reply) (s : State) :
    (answer port kind r s).domains = s.domains := rfl
@[simp] theorem answer_report (port : Port) (kind : Kind) (r : Reply) (s : State) :
    (answer port kind r s).report = s.report := rfl
@[simp] theorem answer_supplyCfg (port : Port) (kind : Kind) (r : Reply) (s : State) :
    (answer port kind r s).supplyCfg = s.supplyCfg := rfl
@[simp] theorem answer_supply (port : Port) (kind : Kind) (r : Reply) (s : State) :
    (answer port kind r s).supply = s.supply := rfl
@[simp] theorem answer_watch (port : Port) (kind : Kind) (r : Reply) (s : State) :
    (answer port kind r s).watch = s.watch := rfl
@[simp] theorem answer_caps (port : Port) (kind : Kind) (r : Reply) (s : State) :
    (answer port kind r s).caps = s.caps := rfl
@[simp] theorem answer_contributors (port : Port) (kind : Kind) (r : Reply) (s : State) :
    (answer port kind r s).contributors = s.contributors := rfl
@[simp] theorem answer_grants (port : Port) (kind : Kind) (r : Reply) (s : State) :
    (answer port kind r s).grants = s.grants := rfl
@[simp] theorem answer_compliance (port : Port) (kind : Kind) (r : Reply) (s : State) :
    (answer port kind r s).compliance = s.compliance := rfl
@[simp] theorem answer_lines (port : Port) (kind : Kind) (r : Reply) (s : State) :
    (answer port kind r s).lines = s.lines := rfl
@[simp] theorem answer_faults (port : Port) (kind : Kind) (r : Reply) (s : State) :
    (answer port kind r s).faults = s.faults := rfl
@[simp] theorem answer_severity (port : Port) (kind : Kind) (r : Reply) (s : State) :
    (answer port kind r s).severity = s.severity := rfl
@[simp] theorem answer_mode (port : Port) (kind : Kind) (r : Reply) (s : State) :
    (answer port kind r s).mode = s.mode := rfl
@[simp] theorem answer_notices (port : Port) (kind : Kind) (r : Reply) (s : State) :
    (answer port kind r s).notices = s.notices := rfl
@[simp] theorem answer_links (port : Port) (kind : Kind) (r : Reply) (s : State) :
    (answer port kind r s).links = (place port (replyFrame (replyKind (kindCode kind)) r) s).links := rfl
@[simp] theorem answer_adrsel (port : Port) (kind : Kind) (r : Reply) (s : State) :
    (answer port kind r s).adrsel = s.adrsel := rfl
@[simp] theorem answer_inReset (port : Port) (kind : Kind) (r : Reply) (s : State) :
    (answer port kind r s).inReset = s.inReset := rfl
@[simp] theorem answer_schedule (port : Port) (kind : Kind) (r : Reply) (s : State) :
    (answer port kind r s).schedule = s.schedule := rfl
@[simp] theorem answer_pending (port : Port) (kind : Kind) (r : Reply) (s : State) :
    (answer port kind r s).pending = s.pending := rfl

/-! ## A port's sets are replaced (R159): `setNotices` -/

@[simp] theorem setNotices_uptime (port : Port) (p m : NoticeSet) (s : State) :
    (setNotices port p m s).uptime = s.uptime := rfl
@[simp] theorem setNotices_temps (port : Port) (p m : NoticeSet) (s : State) :
    (setNotices port p m s).temps = s.temps := rfl
@[simp] theorem setNotices_queue (port : Port) (p m : NoticeSet) (s : State) :
    (setNotices port p m s).queue = s.queue := rfl
@[simp] theorem setNotices_converter (port : Port) (p m : NoticeSet) (s : State) :
    (setNotices port p m s).converter = s.converter := rfl
@[simp] theorem setNotices_powers (port : Port) (p m : NoticeSet) (s : State) :
    (setNotices port p m s).powers = s.powers := rfl
@[simp] theorem setNotices_restFail (port : Port) (p m : NoticeSet) (s : State) :
    (setNotices port p m s).restFail = s.restFail := rfl
@[simp] theorem setNotices_inputs (port : Port) (p m : NoticeSet) (s : State) :
    (setNotices port p m s).inputs = s.inputs := rfl
@[simp] theorem setNotices_candidate (port : Port) (p m : NoticeSet) (s : State) :
    (setNotices port p m s).candidate = s.candidate := rfl
@[simp] theorem setNotices_dwell (port : Port) (p m : NoticeSet) (s : State) :
    (setNotices port p m s).dwell = s.dwell := rfl
@[simp] theorem setNotices_committed (port : Port) (p m : NoticeSet) (s : State) :
    (setNotices port p m s).committed = s.committed := rfl
@[simp] theorem setNotices_enterDwell (port : Port) (p m : NoticeSet) (s : State) :
    (setNotices port p m s).enterDwell = s.enterDwell := rfl
@[simp] theorem setNotices_relaxDwell (port : Port) (p m : NoticeSet) (s : State) :
    (setNotices port p m s).relaxDwell = s.relaxDwell := rfl
@[simp] theorem setNotices_hint (port : Port) (p m : NoticeSet) (s : State) :
    (setNotices port p m s).hint = s.hint := rfl
@[simp] theorem setNotices_effective (port : Port) (p m : NoticeSet) (s : State) :
    (setNotices port p m s).effective = s.effective := rfl
@[simp] theorem setNotices_profile (port : Port) (p m : NoticeSet) (s : State) :
    (setNotices port p m s).profile = s.profile := rfl
@[simp] theorem setNotices_skin (port : Port) (p m : NoticeSet) (s : State) :
    (setNotices port p m s).skin = s.skin := rfl
@[simp] theorem setNotices_column (port : Port) (p m : NoticeSet) (s : State) :
    (setNotices port p m s).column = s.column := rfl
@[simp] theorem setNotices_zones (port : Port) (p m : NoticeSet) (s : State) :
    (setNotices port p m s).zones = s.zones := rfl
@[simp] theorem setNotices_thermal (port : Port) (p m : NoticeSet) (s : State) :
    (setNotices port p m s).thermal = s.thermal := rfl
@[simp] theorem setNotices_accounts (port : Port) (p m : NoticeSet) (s : State) :
    (setNotices port p m s).accounts = s.accounts := rfl
@[simp] theorem setNotices_domains (port : Port) (p m : NoticeSet) (s : State) :
    (setNotices port p m s).domains = s.domains := rfl
@[simp] theorem setNotices_report (port : Port) (p m : NoticeSet) (s : State) :
    (setNotices port p m s).report = s.report := rfl
@[simp] theorem setNotices_supplyCfg (port : Port) (p m : NoticeSet) (s : State) :
    (setNotices port p m s).supplyCfg = s.supplyCfg := rfl
@[simp] theorem setNotices_supply (port : Port) (p m : NoticeSet) (s : State) :
    (setNotices port p m s).supply = s.supply := rfl
@[simp] theorem setNotices_watch (port : Port) (p m : NoticeSet) (s : State) :
    (setNotices port p m s).watch = s.watch := rfl
@[simp] theorem setNotices_caps (port : Port) (p m : NoticeSet) (s : State) :
    (setNotices port p m s).caps = s.caps := rfl
@[simp] theorem setNotices_contributors (port : Port) (p m : NoticeSet) (s : State) :
    (setNotices port p m s).contributors = s.contributors := rfl
@[simp] theorem setNotices_grants (port : Port) (p m : NoticeSet) (s : State) :
    (setNotices port p m s).grants = s.grants := rfl
@[simp] theorem setNotices_compliance (port : Port) (p m : NoticeSet) (s : State) :
    (setNotices port p m s).compliance = s.compliance := rfl
@[simp] theorem setNotices_lines (port : Port) (p m : NoticeSet) (s : State) :
    (setNotices port p m s).lines = s.lines := rfl
@[simp] theorem setNotices_faults (port : Port) (p m : NoticeSet) (s : State) :
    (setNotices port p m s).faults = s.faults := rfl
@[simp] theorem setNotices_severity (port : Port) (p m : NoticeSet) (s : State) :
    (setNotices port p m s).severity = s.severity := rfl
@[simp] theorem setNotices_mode (port : Port) (p m : NoticeSet) (s : State) :
    (setNotices port p m s).mode = s.mode := rfl
@[simp] theorem setNotices_notices (port : Port) (p m : NoticeSet) (s : State) :
    (setNotices port p m s).notices = s.notices.set port { pending := p, mask := m, attention := attentionOf p m } := rfl
@[simp] theorem setNotices_links (port : Port) (p m : NoticeSet) (s : State) :
    (setNotices port p m s).links = s.links := rfl
@[simp] theorem setNotices_adrsel (port : Port) (p m : NoticeSet) (s : State) :
    (setNotices port p m s).adrsel = s.adrsel := rfl
@[simp] theorem setNotices_inReset (port : Port) (p m : NoticeSet) (s : State) :
    (setNotices port p m s).inReset = s.inReset := rfl
@[simp] theorem setNotices_schedule (port : Port) (p m : NoticeSet) (s : State) :
    (setNotices port p m s).schedule = s.schedule := rfl
@[simp] theorem setNotices_pending (port : Port) (p m : NoticeSet) (s : State) :
    (setNotices port p m s).pending = s.pending := rfl

/-! ## A temperature channel's record is replaced: `setTempRecord` -/

@[simp] theorem setTempRecord_uptime (c : TempId) (v : TempChannel) (s : State) :
    (setTempRecord c v s).uptime = s.uptime := rfl
@[simp] theorem setTempRecord_temps (c : TempId) (v : TempChannel) (s : State) :
    (setTempRecord c v s).temps = s.temps.set c v := rfl
@[simp] theorem setTempRecord_queue (c : TempId) (v : TempChannel) (s : State) :
    (setTempRecord c v s).queue = s.queue := rfl
@[simp] theorem setTempRecord_converter (c : TempId) (v : TempChannel) (s : State) :
    (setTempRecord c v s).converter = s.converter := rfl
@[simp] theorem setTempRecord_powers (c : TempId) (v : TempChannel) (s : State) :
    (setTempRecord c v s).powers = s.powers := rfl
@[simp] theorem setTempRecord_restFail (c : TempId) (v : TempChannel) (s : State) :
    (setTempRecord c v s).restFail = s.restFail := rfl
@[simp] theorem setTempRecord_inputs (c : TempId) (v : TempChannel) (s : State) :
    (setTempRecord c v s).inputs = s.inputs := rfl
@[simp] theorem setTempRecord_candidate (c : TempId) (v : TempChannel) (s : State) :
    (setTempRecord c v s).candidate = s.candidate := rfl
@[simp] theorem setTempRecord_dwell (c : TempId) (v : TempChannel) (s : State) :
    (setTempRecord c v s).dwell = s.dwell := rfl
@[simp] theorem setTempRecord_committed (c : TempId) (v : TempChannel) (s : State) :
    (setTempRecord c v s).committed = s.committed := rfl
@[simp] theorem setTempRecord_enterDwell (c : TempId) (v : TempChannel) (s : State) :
    (setTempRecord c v s).enterDwell = s.enterDwell := rfl
@[simp] theorem setTempRecord_relaxDwell (c : TempId) (v : TempChannel) (s : State) :
    (setTempRecord c v s).relaxDwell = s.relaxDwell := rfl
@[simp] theorem setTempRecord_hint (c : TempId) (v : TempChannel) (s : State) :
    (setTempRecord c v s).hint = s.hint := rfl
@[simp] theorem setTempRecord_effective (c : TempId) (v : TempChannel) (s : State) :
    (setTempRecord c v s).effective = s.effective := rfl
@[simp] theorem setTempRecord_profile (c : TempId) (v : TempChannel) (s : State) :
    (setTempRecord c v s).profile = s.profile := rfl
@[simp] theorem setTempRecord_skin (c : TempId) (v : TempChannel) (s : State) :
    (setTempRecord c v s).skin = s.skin := rfl
@[simp] theorem setTempRecord_column (c : TempId) (v : TempChannel) (s : State) :
    (setTempRecord c v s).column = s.column := rfl
@[simp] theorem setTempRecord_zones (c : TempId) (v : TempChannel) (s : State) :
    (setTempRecord c v s).zones = s.zones := rfl
@[simp] theorem setTempRecord_thermal (c : TempId) (v : TempChannel) (s : State) :
    (setTempRecord c v s).thermal = s.thermal := rfl
@[simp] theorem setTempRecord_accounts (c : TempId) (v : TempChannel) (s : State) :
    (setTempRecord c v s).accounts = s.accounts := rfl
@[simp] theorem setTempRecord_domains (c : TempId) (v : TempChannel) (s : State) :
    (setTempRecord c v s).domains = s.domains := rfl
@[simp] theorem setTempRecord_report (c : TempId) (v : TempChannel) (s : State) :
    (setTempRecord c v s).report = s.report := rfl
@[simp] theorem setTempRecord_supplyCfg (c : TempId) (v : TempChannel) (s : State) :
    (setTempRecord c v s).supplyCfg = s.supplyCfg := rfl
@[simp] theorem setTempRecord_supply (c : TempId) (v : TempChannel) (s : State) :
    (setTempRecord c v s).supply = s.supply := rfl
@[simp] theorem setTempRecord_watch (c : TempId) (v : TempChannel) (s : State) :
    (setTempRecord c v s).watch = s.watch := rfl
@[simp] theorem setTempRecord_caps (c : TempId) (v : TempChannel) (s : State) :
    (setTempRecord c v s).caps = s.caps := rfl
@[simp] theorem setTempRecord_contributors (c : TempId) (v : TempChannel) (s : State) :
    (setTempRecord c v s).contributors = s.contributors := rfl
@[simp] theorem setTempRecord_grants (c : TempId) (v : TempChannel) (s : State) :
    (setTempRecord c v s).grants = s.grants := rfl
@[simp] theorem setTempRecord_compliance (c : TempId) (v : TempChannel) (s : State) :
    (setTempRecord c v s).compliance = s.compliance := rfl
@[simp] theorem setTempRecord_lines (c : TempId) (v : TempChannel) (s : State) :
    (setTempRecord c v s).lines = s.lines := rfl
@[simp] theorem setTempRecord_faults (c : TempId) (v : TempChannel) (s : State) :
    (setTempRecord c v s).faults = s.faults := rfl
@[simp] theorem setTempRecord_severity (c : TempId) (v : TempChannel) (s : State) :
    (setTempRecord c v s).severity = s.severity := rfl
@[simp] theorem setTempRecord_mode (c : TempId) (v : TempChannel) (s : State) :
    (setTempRecord c v s).mode = s.mode := rfl
@[simp] theorem setTempRecord_notices (c : TempId) (v : TempChannel) (s : State) :
    (setTempRecord c v s).notices = s.notices := rfl
@[simp] theorem setTempRecord_links (c : TempId) (v : TempChannel) (s : State) :
    (setTempRecord c v s).links = s.links := rfl
@[simp] theorem setTempRecord_adrsel (c : TempId) (v : TempChannel) (s : State) :
    (setTempRecord c v s).adrsel = s.adrsel := rfl
@[simp] theorem setTempRecord_inReset (c : TempId) (v : TempChannel) (s : State) :
    (setTempRecord c v s).inReset = s.inReset := rfl
@[simp] theorem setTempRecord_schedule (c : TempId) (v : TempChannel) (s : State) :
    (setTempRecord c v s).schedule = s.schedule := rfl
@[simp] theorem setTempRecord_pending (c : TempId) (v : TempChannel) (s : State) :
    (setTempRecord c v s).pending = s.pending := rfl

/-! ## A power channel's record is replaced: `setPowerRecord` -/

@[simp] theorem setPowerRecord_uptime (n : PowerId) (v : PowerChannel) (s : State) :
    (setPowerRecord n v s).uptime = s.uptime := rfl
@[simp] theorem setPowerRecord_temps (n : PowerId) (v : PowerChannel) (s : State) :
    (setPowerRecord n v s).temps = s.temps := rfl
@[simp] theorem setPowerRecord_queue (n : PowerId) (v : PowerChannel) (s : State) :
    (setPowerRecord n v s).queue = s.queue := rfl
@[simp] theorem setPowerRecord_converter (n : PowerId) (v : PowerChannel) (s : State) :
    (setPowerRecord n v s).converter = s.converter := rfl
@[simp] theorem setPowerRecord_powers (n : PowerId) (v : PowerChannel) (s : State) :
    (setPowerRecord n v s).powers = s.powers.set n v := rfl
@[simp] theorem setPowerRecord_restFail (n : PowerId) (v : PowerChannel) (s : State) :
    (setPowerRecord n v s).restFail = s.restFail := rfl
@[simp] theorem setPowerRecord_inputs (n : PowerId) (v : PowerChannel) (s : State) :
    (setPowerRecord n v s).inputs = s.inputs := rfl
@[simp] theorem setPowerRecord_candidate (n : PowerId) (v : PowerChannel) (s : State) :
    (setPowerRecord n v s).candidate = s.candidate := rfl
@[simp] theorem setPowerRecord_dwell (n : PowerId) (v : PowerChannel) (s : State) :
    (setPowerRecord n v s).dwell = s.dwell := rfl
@[simp] theorem setPowerRecord_committed (n : PowerId) (v : PowerChannel) (s : State) :
    (setPowerRecord n v s).committed = s.committed := rfl
@[simp] theorem setPowerRecord_enterDwell (n : PowerId) (v : PowerChannel) (s : State) :
    (setPowerRecord n v s).enterDwell = s.enterDwell := rfl
@[simp] theorem setPowerRecord_relaxDwell (n : PowerId) (v : PowerChannel) (s : State) :
    (setPowerRecord n v s).relaxDwell = s.relaxDwell := rfl
@[simp] theorem setPowerRecord_hint (n : PowerId) (v : PowerChannel) (s : State) :
    (setPowerRecord n v s).hint = s.hint := rfl
@[simp] theorem setPowerRecord_effective (n : PowerId) (v : PowerChannel) (s : State) :
    (setPowerRecord n v s).effective = s.effective := rfl
@[simp] theorem setPowerRecord_profile (n : PowerId) (v : PowerChannel) (s : State) :
    (setPowerRecord n v s).profile = s.profile := rfl
@[simp] theorem setPowerRecord_skin (n : PowerId) (v : PowerChannel) (s : State) :
    (setPowerRecord n v s).skin = s.skin := rfl
@[simp] theorem setPowerRecord_column (n : PowerId) (v : PowerChannel) (s : State) :
    (setPowerRecord n v s).column = s.column := rfl
@[simp] theorem setPowerRecord_zones (n : PowerId) (v : PowerChannel) (s : State) :
    (setPowerRecord n v s).zones = s.zones := rfl
@[simp] theorem setPowerRecord_thermal (n : PowerId) (v : PowerChannel) (s : State) :
    (setPowerRecord n v s).thermal = s.thermal := rfl
@[simp] theorem setPowerRecord_accounts (n : PowerId) (v : PowerChannel) (s : State) :
    (setPowerRecord n v s).accounts = s.accounts := rfl
@[simp] theorem setPowerRecord_domains (n : PowerId) (v : PowerChannel) (s : State) :
    (setPowerRecord n v s).domains = s.domains := rfl
@[simp] theorem setPowerRecord_report (n : PowerId) (v : PowerChannel) (s : State) :
    (setPowerRecord n v s).report = s.report := rfl
@[simp] theorem setPowerRecord_supplyCfg (n : PowerId) (v : PowerChannel) (s : State) :
    (setPowerRecord n v s).supplyCfg = s.supplyCfg := rfl
@[simp] theorem setPowerRecord_supply (n : PowerId) (v : PowerChannel) (s : State) :
    (setPowerRecord n v s).supply = s.supply := rfl
@[simp] theorem setPowerRecord_watch (n : PowerId) (v : PowerChannel) (s : State) :
    (setPowerRecord n v s).watch = s.watch := rfl
@[simp] theorem setPowerRecord_caps (n : PowerId) (v : PowerChannel) (s : State) :
    (setPowerRecord n v s).caps = s.caps := rfl
@[simp] theorem setPowerRecord_contributors (n : PowerId) (v : PowerChannel) (s : State) :
    (setPowerRecord n v s).contributors = s.contributors := rfl
@[simp] theorem setPowerRecord_grants (n : PowerId) (v : PowerChannel) (s : State) :
    (setPowerRecord n v s).grants = s.grants := rfl
@[simp] theorem setPowerRecord_compliance (n : PowerId) (v : PowerChannel) (s : State) :
    (setPowerRecord n v s).compliance = s.compliance := rfl
@[simp] theorem setPowerRecord_lines (n : PowerId) (v : PowerChannel) (s : State) :
    (setPowerRecord n v s).lines = s.lines := rfl
@[simp] theorem setPowerRecord_faults (n : PowerId) (v : PowerChannel) (s : State) :
    (setPowerRecord n v s).faults = s.faults := rfl
@[simp] theorem setPowerRecord_severity (n : PowerId) (v : PowerChannel) (s : State) :
    (setPowerRecord n v s).severity = s.severity := rfl
@[simp] theorem setPowerRecord_mode (n : PowerId) (v : PowerChannel) (s : State) :
    (setPowerRecord n v s).mode = s.mode := rfl
@[simp] theorem setPowerRecord_notices (n : PowerId) (v : PowerChannel) (s : State) :
    (setPowerRecord n v s).notices = s.notices := rfl
@[simp] theorem setPowerRecord_links (n : PowerId) (v : PowerChannel) (s : State) :
    (setPowerRecord n v s).links = s.links := rfl
@[simp] theorem setPowerRecord_adrsel (n : PowerId) (v : PowerChannel) (s : State) :
    (setPowerRecord n v s).adrsel = s.adrsel := rfl
@[simp] theorem setPowerRecord_inReset (n : PowerId) (v : PowerChannel) (s : State) :
    (setPowerRecord n v s).inReset = s.inReset := rfl
@[simp] theorem setPowerRecord_schedule (n : PowerId) (v : PowerChannel) (s : State) :
    (setPowerRecord n v s).schedule = s.schedule := rfl
@[simp] theorem setPowerRecord_pending (n : PowerId) (v : PowerChannel) (s : State) :
    (setPowerRecord n v s).pending = s.pending := rfl

/-! ## The conversion of a channel is voided (R6): `voidConversion` -/

@[simp] theorem voidConversion_uptime (c : TempId) (s : State) : (voidConversion c s).uptime = s.uptime := rfl
@[simp] theorem voidConversion_temps (c : TempId) (s : State) : (voidConversion c s).temps = s.temps := rfl
@[simp] theorem voidConversion_queue (c : TempId) (s : State) : (voidConversion c s).queue = s.queue := rfl
@[simp] theorem voidConversion_converter (c : TempId) (s : State) :
    (voidConversion c s).converter = s.converter.map fun j => if j.channel = c then { j with voided := true } else j := rfl
@[simp] theorem voidConversion_powers (c : TempId) (s : State) : (voidConversion c s).powers = s.powers := rfl
@[simp] theorem voidConversion_restFail (c : TempId) (s : State) : (voidConversion c s).restFail = s.restFail := rfl
@[simp] theorem voidConversion_inputs (c : TempId) (s : State) : (voidConversion c s).inputs = s.inputs := rfl
@[simp] theorem voidConversion_candidate (c : TempId) (s : State) : (voidConversion c s).candidate = s.candidate := rfl
@[simp] theorem voidConversion_dwell (c : TempId) (s : State) : (voidConversion c s).dwell = s.dwell := rfl
@[simp] theorem voidConversion_committed (c : TempId) (s : State) : (voidConversion c s).committed = s.committed := rfl
@[simp] theorem voidConversion_enterDwell (c : TempId) (s : State) :
    (voidConversion c s).enterDwell = s.enterDwell := rfl
@[simp] theorem voidConversion_relaxDwell (c : TempId) (s : State) :
    (voidConversion c s).relaxDwell = s.relaxDwell := rfl
@[simp] theorem voidConversion_hint (c : TempId) (s : State) : (voidConversion c s).hint = s.hint := rfl
@[simp] theorem voidConversion_effective (c : TempId) (s : State) : (voidConversion c s).effective = s.effective := rfl
@[simp] theorem voidConversion_profile (c : TempId) (s : State) : (voidConversion c s).profile = s.profile := rfl
@[simp] theorem voidConversion_skin (c : TempId) (s : State) : (voidConversion c s).skin = s.skin := rfl
@[simp] theorem voidConversion_column (c : TempId) (s : State) : (voidConversion c s).column = s.column := rfl
@[simp] theorem voidConversion_zones (c : TempId) (s : State) : (voidConversion c s).zones = s.zones := rfl
@[simp] theorem voidConversion_thermal (c : TempId) (s : State) : (voidConversion c s).thermal = s.thermal := rfl
@[simp] theorem voidConversion_accounts (c : TempId) (s : State) : (voidConversion c s).accounts = s.accounts := rfl
@[simp] theorem voidConversion_domains (c : TempId) (s : State) : (voidConversion c s).domains = s.domains := rfl
@[simp] theorem voidConversion_report (c : TempId) (s : State) : (voidConversion c s).report = s.report := rfl
@[simp] theorem voidConversion_supplyCfg (c : TempId) (s : State) : (voidConversion c s).supplyCfg = s.supplyCfg := rfl
@[simp] theorem voidConversion_supply (c : TempId) (s : State) : (voidConversion c s).supply = s.supply := rfl
@[simp] theorem voidConversion_watch (c : TempId) (s : State) : (voidConversion c s).watch = s.watch := rfl
@[simp] theorem voidConversion_caps (c : TempId) (s : State) : (voidConversion c s).caps = s.caps := rfl
@[simp] theorem voidConversion_contributors (c : TempId) (s : State) :
    (voidConversion c s).contributors = s.contributors := rfl
@[simp] theorem voidConversion_grants (c : TempId) (s : State) : (voidConversion c s).grants = s.grants := rfl
@[simp] theorem voidConversion_compliance (c : TempId) (s : State) :
    (voidConversion c s).compliance = s.compliance := rfl
@[simp] theorem voidConversion_lines (c : TempId) (s : State) : (voidConversion c s).lines = s.lines := rfl
@[simp] theorem voidConversion_faults (c : TempId) (s : State) : (voidConversion c s).faults = s.faults := rfl
@[simp] theorem voidConversion_severity (c : TempId) (s : State) : (voidConversion c s).severity = s.severity := rfl
@[simp] theorem voidConversion_mode (c : TempId) (s : State) : (voidConversion c s).mode = s.mode := rfl
@[simp] theorem voidConversion_notices (c : TempId) (s : State) : (voidConversion c s).notices = s.notices := rfl
@[simp] theorem voidConversion_links (c : TempId) (s : State) : (voidConversion c s).links = s.links := rfl
@[simp] theorem voidConversion_adrsel (c : TempId) (s : State) : (voidConversion c s).adrsel = s.adrsel := rfl
@[simp] theorem voidConversion_inReset (c : TempId) (s : State) : (voidConversion c s).inReset = s.inReset := rfl
@[simp] theorem voidConversion_schedule (c : TempId) (s : State) : (voidConversion c s).schedule = s.schedule := rfl
@[simp] theorem voidConversion_pending (c : TempId) (s : State) : (voidConversion c s).pending = s.pending := rfl

/-! ## A zone's record is replaced: `setZoneRecord` -/

@[simp] theorem setZoneRecord_uptime (z : ZoneId) (v : Zone) (s : State) :
    (setZoneRecord z v s).uptime = s.uptime := rfl
@[simp] theorem setZoneRecord_temps (z : ZoneId) (v : Zone) (s : State) : (setZoneRecord z v s).temps = s.temps := rfl
@[simp] theorem setZoneRecord_queue (z : ZoneId) (v : Zone) (s : State) : (setZoneRecord z v s).queue = s.queue := rfl
@[simp] theorem setZoneRecord_converter (z : ZoneId) (v : Zone) (s : State) :
    (setZoneRecord z v s).converter = s.converter := rfl
@[simp] theorem setZoneRecord_powers (z : ZoneId) (v : Zone) (s : State) :
    (setZoneRecord z v s).powers = s.powers := rfl
@[simp] theorem setZoneRecord_restFail (z : ZoneId) (v : Zone) (s : State) :
    (setZoneRecord z v s).restFail = s.restFail := rfl
@[simp] theorem setZoneRecord_inputs (z : ZoneId) (v : Zone) (s : State) :
    (setZoneRecord z v s).inputs = s.inputs := rfl
@[simp] theorem setZoneRecord_candidate (z : ZoneId) (v : Zone) (s : State) :
    (setZoneRecord z v s).candidate = s.candidate := rfl
@[simp] theorem setZoneRecord_dwell (z : ZoneId) (v : Zone) (s : State) : (setZoneRecord z v s).dwell = s.dwell := rfl
@[simp] theorem setZoneRecord_committed (z : ZoneId) (v : Zone) (s : State) :
    (setZoneRecord z v s).committed = s.committed := rfl
@[simp] theorem setZoneRecord_enterDwell (z : ZoneId) (v : Zone) (s : State) :
    (setZoneRecord z v s).enterDwell = s.enterDwell := rfl
@[simp] theorem setZoneRecord_relaxDwell (z : ZoneId) (v : Zone) (s : State) :
    (setZoneRecord z v s).relaxDwell = s.relaxDwell := rfl
@[simp] theorem setZoneRecord_hint (z : ZoneId) (v : Zone) (s : State) : (setZoneRecord z v s).hint = s.hint := rfl
@[simp] theorem setZoneRecord_effective (z : ZoneId) (v : Zone) (s : State) :
    (setZoneRecord z v s).effective = s.effective := rfl
@[simp] theorem setZoneRecord_profile (z : ZoneId) (v : Zone) (s : State) :
    (setZoneRecord z v s).profile = s.profile := rfl
@[simp] theorem setZoneRecord_skin (z : ZoneId) (v : Zone) (s : State) : (setZoneRecord z v s).skin = s.skin := rfl
@[simp] theorem setZoneRecord_column (z : ZoneId) (v : Zone) (s : State) :
    (setZoneRecord z v s).column = s.column := rfl
@[simp] theorem setZoneRecord_zones (z : ZoneId) (v : Zone) (s : State) :
    (setZoneRecord z v s).zones = s.zones.set z v := rfl
@[simp] theorem setZoneRecord_thermal (z : ZoneId) (v : Zone) (s : State) :
    (setZoneRecord z v s).thermal = s.thermal := rfl
@[simp] theorem setZoneRecord_accounts (z : ZoneId) (v : Zone) (s : State) :
    (setZoneRecord z v s).accounts = s.accounts := rfl
@[simp] theorem setZoneRecord_domains (z : ZoneId) (v : Zone) (s : State) :
    (setZoneRecord z v s).domains = s.domains := rfl
@[simp] theorem setZoneRecord_report (z : ZoneId) (v : Zone) (s : State) :
    (setZoneRecord z v s).report = s.report := rfl
@[simp] theorem setZoneRecord_supplyCfg (z : ZoneId) (v : Zone) (s : State) :
    (setZoneRecord z v s).supplyCfg = s.supplyCfg := rfl
@[simp] theorem setZoneRecord_supply (z : ZoneId) (v : Zone) (s : State) :
    (setZoneRecord z v s).supply = s.supply := rfl
@[simp] theorem setZoneRecord_watch (z : ZoneId) (v : Zone) (s : State) : (setZoneRecord z v s).watch = s.watch := rfl
@[simp] theorem setZoneRecord_caps (z : ZoneId) (v : Zone) (s : State) : (setZoneRecord z v s).caps = s.caps := rfl
@[simp] theorem setZoneRecord_contributors (z : ZoneId) (v : Zone) (s : State) :
    (setZoneRecord z v s).contributors = s.contributors := rfl
@[simp] theorem setZoneRecord_grants (z : ZoneId) (v : Zone) (s : State) :
    (setZoneRecord z v s).grants = s.grants := rfl
@[simp] theorem setZoneRecord_compliance (z : ZoneId) (v : Zone) (s : State) :
    (setZoneRecord z v s).compliance = s.compliance := rfl
@[simp] theorem setZoneRecord_lines (z : ZoneId) (v : Zone) (s : State) : (setZoneRecord z v s).lines = s.lines := rfl
@[simp] theorem setZoneRecord_faults (z : ZoneId) (v : Zone) (s : State) :
    (setZoneRecord z v s).faults = s.faults := rfl
@[simp] theorem setZoneRecord_severity (z : ZoneId) (v : Zone) (s : State) :
    (setZoneRecord z v s).severity = s.severity := rfl
@[simp] theorem setZoneRecord_mode (z : ZoneId) (v : Zone) (s : State) : (setZoneRecord z v s).mode = s.mode := rfl
@[simp] theorem setZoneRecord_notices (z : ZoneId) (v : Zone) (s : State) :
    (setZoneRecord z v s).notices = s.notices := rfl
@[simp] theorem setZoneRecord_links (z : ZoneId) (v : Zone) (s : State) : (setZoneRecord z v s).links = s.links := rfl
@[simp] theorem setZoneRecord_adrsel (z : ZoneId) (v : Zone) (s : State) :
    (setZoneRecord z v s).adrsel = s.adrsel := rfl
@[simp] theorem setZoneRecord_inReset (z : ZoneId) (v : Zone) (s : State) :
    (setZoneRecord z v s).inReset = s.inReset := rfl
@[simp] theorem setZoneRecord_schedule (z : ZoneId) (v : Zone) (s : State) :
    (setZoneRecord z v s).schedule = s.schedule := rfl
@[simp] theorem setZoneRecord_pending (z : ZoneId) (v : Zone) (s : State) :
    (setZoneRecord z v s).pending = s.pending := rfl

/-! ## A domain's compliance is replaced: `setCompliance` -/

@[simp] theorem setCompliance_uptime (d : DomainId) (c : Compliance) (s : State) :
    (setCompliance d c s).uptime = s.uptime := rfl
@[simp] theorem setCompliance_temps (d : DomainId) (c : Compliance) (s : State) :
    (setCompliance d c s).temps = s.temps := rfl
@[simp] theorem setCompliance_queue (d : DomainId) (c : Compliance) (s : State) :
    (setCompliance d c s).queue = s.queue := rfl
@[simp] theorem setCompliance_converter (d : DomainId) (c : Compliance) (s : State) :
    (setCompliance d c s).converter = s.converter := rfl
@[simp] theorem setCompliance_powers (d : DomainId) (c : Compliance) (s : State) :
    (setCompliance d c s).powers = s.powers := rfl
@[simp] theorem setCompliance_restFail (d : DomainId) (c : Compliance) (s : State) :
    (setCompliance d c s).restFail = s.restFail := rfl
@[simp] theorem setCompliance_inputs (d : DomainId) (c : Compliance) (s : State) :
    (setCompliance d c s).inputs = s.inputs := rfl
@[simp] theorem setCompliance_candidate (d : DomainId) (c : Compliance) (s : State) :
    (setCompliance d c s).candidate = s.candidate := rfl
@[simp] theorem setCompliance_dwell (d : DomainId) (c : Compliance) (s : State) :
    (setCompliance d c s).dwell = s.dwell := rfl
@[simp] theorem setCompliance_committed (d : DomainId) (c : Compliance) (s : State) :
    (setCompliance d c s).committed = s.committed := rfl
@[simp] theorem setCompliance_enterDwell (d : DomainId) (c : Compliance) (s : State) :
    (setCompliance d c s).enterDwell = s.enterDwell := rfl
@[simp] theorem setCompliance_relaxDwell (d : DomainId) (c : Compliance) (s : State) :
    (setCompliance d c s).relaxDwell = s.relaxDwell := rfl
@[simp] theorem setCompliance_hint (d : DomainId) (c : Compliance) (s : State) :
    (setCompliance d c s).hint = s.hint := rfl
@[simp] theorem setCompliance_effective (d : DomainId) (c : Compliance) (s : State) :
    (setCompliance d c s).effective = s.effective := rfl
@[simp] theorem setCompliance_profile (d : DomainId) (c : Compliance) (s : State) :
    (setCompliance d c s).profile = s.profile := rfl
@[simp] theorem setCompliance_skin (d : DomainId) (c : Compliance) (s : State) :
    (setCompliance d c s).skin = s.skin := rfl
@[simp] theorem setCompliance_column (d : DomainId) (c : Compliance) (s : State) :
    (setCompliance d c s).column = s.column := rfl
@[simp] theorem setCompliance_zones (d : DomainId) (c : Compliance) (s : State) :
    (setCompliance d c s).zones = s.zones := rfl
@[simp] theorem setCompliance_thermal (d : DomainId) (c : Compliance) (s : State) :
    (setCompliance d c s).thermal = s.thermal := rfl
@[simp] theorem setCompliance_accounts (d : DomainId) (c : Compliance) (s : State) :
    (setCompliance d c s).accounts = s.accounts := rfl
@[simp] theorem setCompliance_domains (d : DomainId) (c : Compliance) (s : State) :
    (setCompliance d c s).domains = s.domains := rfl
@[simp] theorem setCompliance_report (d : DomainId) (c : Compliance) (s : State) :
    (setCompliance d c s).report = s.report := rfl
@[simp] theorem setCompliance_supplyCfg (d : DomainId) (c : Compliance) (s : State) :
    (setCompliance d c s).supplyCfg = s.supplyCfg := rfl
@[simp] theorem setCompliance_supply (d : DomainId) (c : Compliance) (s : State) :
    (setCompliance d c s).supply = s.supply := rfl
@[simp] theorem setCompliance_watch (d : DomainId) (c : Compliance) (s : State) :
    (setCompliance d c s).watch = s.watch := rfl
@[simp] theorem setCompliance_caps (d : DomainId) (c : Compliance) (s : State) :
    (setCompliance d c s).caps = s.caps := rfl
@[simp] theorem setCompliance_contributors (d : DomainId) (c : Compliance) (s : State) :
    (setCompliance d c s).contributors = s.contributors := rfl
@[simp] theorem setCompliance_grants (d : DomainId) (c : Compliance) (s : State) :
    (setCompliance d c s).grants = s.grants := rfl
@[simp] theorem setCompliance_compliance (d : DomainId) (c : Compliance) (s : State) :
    (setCompliance d c s).compliance = s.compliance.set d c := rfl
@[simp] theorem setCompliance_lines (d : DomainId) (c : Compliance) (s : State) :
    (setCompliance d c s).lines = s.lines := rfl
@[simp] theorem setCompliance_faults (d : DomainId) (c : Compliance) (s : State) :
    (setCompliance d c s).faults = s.faults := rfl
@[simp] theorem setCompliance_severity (d : DomainId) (c : Compliance) (s : State) :
    (setCompliance d c s).severity = s.severity := rfl
@[simp] theorem setCompliance_mode (d : DomainId) (c : Compliance) (s : State) :
    (setCompliance d c s).mode = s.mode := rfl
@[simp] theorem setCompliance_notices (d : DomainId) (c : Compliance) (s : State) :
    (setCompliance d c s).notices = s.notices := rfl
@[simp] theorem setCompliance_links (d : DomainId) (c : Compliance) (s : State) :
    (setCompliance d c s).links = s.links := rfl
@[simp] theorem setCompliance_adrsel (d : DomainId) (c : Compliance) (s : State) :
    (setCompliance d c s).adrsel = s.adrsel := rfl
@[simp] theorem setCompliance_inReset (d : DomainId) (c : Compliance) (s : State) :
    (setCompliance d c s).inReset = s.inReset := rfl
@[simp] theorem setCompliance_schedule (d : DomainId) (c : Compliance) (s : State) :
    (setCompliance d c s).schedule = s.schedule := rfl
@[simp] theorem setCompliance_pending (d : DomainId) (c : Compliance) (s : State) :
    (setCompliance d c s).pending = s.pending := rfl

/-! ## A line's record is replaced: `setLineRecord` -/

@[simp] theorem setLineRecord_uptime (l : LineId) (v : ThrottleLine) (s : State) :
    (setLineRecord l v s).uptime = s.uptime := rfl
@[simp] theorem setLineRecord_temps (l : LineId) (v : ThrottleLine) (s : State) :
    (setLineRecord l v s).temps = s.temps := rfl
@[simp] theorem setLineRecord_queue (l : LineId) (v : ThrottleLine) (s : State) :
    (setLineRecord l v s).queue = s.queue := rfl
@[simp] theorem setLineRecord_converter (l : LineId) (v : ThrottleLine) (s : State) :
    (setLineRecord l v s).converter = s.converter := rfl
@[simp] theorem setLineRecord_powers (l : LineId) (v : ThrottleLine) (s : State) :
    (setLineRecord l v s).powers = s.powers := rfl
@[simp] theorem setLineRecord_restFail (l : LineId) (v : ThrottleLine) (s : State) :
    (setLineRecord l v s).restFail = s.restFail := rfl
@[simp] theorem setLineRecord_inputs (l : LineId) (v : ThrottleLine) (s : State) :
    (setLineRecord l v s).inputs = s.inputs := rfl
@[simp] theorem setLineRecord_candidate (l : LineId) (v : ThrottleLine) (s : State) :
    (setLineRecord l v s).candidate = s.candidate := rfl
@[simp] theorem setLineRecord_dwell (l : LineId) (v : ThrottleLine) (s : State) :
    (setLineRecord l v s).dwell = s.dwell := rfl
@[simp] theorem setLineRecord_committed (l : LineId) (v : ThrottleLine) (s : State) :
    (setLineRecord l v s).committed = s.committed := rfl
@[simp] theorem setLineRecord_enterDwell (l : LineId) (v : ThrottleLine) (s : State) :
    (setLineRecord l v s).enterDwell = s.enterDwell := rfl
@[simp] theorem setLineRecord_relaxDwell (l : LineId) (v : ThrottleLine) (s : State) :
    (setLineRecord l v s).relaxDwell = s.relaxDwell := rfl
@[simp] theorem setLineRecord_hint (l : LineId) (v : ThrottleLine) (s : State) :
    (setLineRecord l v s).hint = s.hint := rfl
@[simp] theorem setLineRecord_effective (l : LineId) (v : ThrottleLine) (s : State) :
    (setLineRecord l v s).effective = s.effective := rfl
@[simp] theorem setLineRecord_profile (l : LineId) (v : ThrottleLine) (s : State) :
    (setLineRecord l v s).profile = s.profile := rfl
@[simp] theorem setLineRecord_skin (l : LineId) (v : ThrottleLine) (s : State) :
    (setLineRecord l v s).skin = s.skin := rfl
@[simp] theorem setLineRecord_column (l : LineId) (v : ThrottleLine) (s : State) :
    (setLineRecord l v s).column = s.column := rfl
@[simp] theorem setLineRecord_zones (l : LineId) (v : ThrottleLine) (s : State) :
    (setLineRecord l v s).zones = s.zones := rfl
@[simp] theorem setLineRecord_thermal (l : LineId) (v : ThrottleLine) (s : State) :
    (setLineRecord l v s).thermal = s.thermal := rfl
@[simp] theorem setLineRecord_accounts (l : LineId) (v : ThrottleLine) (s : State) :
    (setLineRecord l v s).accounts = s.accounts := rfl
@[simp] theorem setLineRecord_domains (l : LineId) (v : ThrottleLine) (s : State) :
    (setLineRecord l v s).domains = s.domains := rfl
@[simp] theorem setLineRecord_report (l : LineId) (v : ThrottleLine) (s : State) :
    (setLineRecord l v s).report = s.report := rfl
@[simp] theorem setLineRecord_supplyCfg (l : LineId) (v : ThrottleLine) (s : State) :
    (setLineRecord l v s).supplyCfg = s.supplyCfg := rfl
@[simp] theorem setLineRecord_supply (l : LineId) (v : ThrottleLine) (s : State) :
    (setLineRecord l v s).supply = s.supply := rfl
@[simp] theorem setLineRecord_watch (l : LineId) (v : ThrottleLine) (s : State) :
    (setLineRecord l v s).watch = s.watch := rfl
@[simp] theorem setLineRecord_caps (l : LineId) (v : ThrottleLine) (s : State) :
    (setLineRecord l v s).caps = s.caps := rfl
@[simp] theorem setLineRecord_contributors (l : LineId) (v : ThrottleLine) (s : State) :
    (setLineRecord l v s).contributors = s.contributors := rfl
@[simp] theorem setLineRecord_grants (l : LineId) (v : ThrottleLine) (s : State) :
    (setLineRecord l v s).grants = s.grants := rfl
@[simp] theorem setLineRecord_compliance (l : LineId) (v : ThrottleLine) (s : State) :
    (setLineRecord l v s).compliance = s.compliance := rfl
@[simp] theorem setLineRecord_lines (l : LineId) (v : ThrottleLine) (s : State) :
    (setLineRecord l v s).lines = s.lines.set l v := rfl
@[simp] theorem setLineRecord_faults (l : LineId) (v : ThrottleLine) (s : State) :
    (setLineRecord l v s).faults = s.faults := rfl
@[simp] theorem setLineRecord_severity (l : LineId) (v : ThrottleLine) (s : State) :
    (setLineRecord l v s).severity = s.severity := rfl
@[simp] theorem setLineRecord_mode (l : LineId) (v : ThrottleLine) (s : State) :
    (setLineRecord l v s).mode = s.mode := rfl
@[simp] theorem setLineRecord_notices (l : LineId) (v : ThrottleLine) (s : State) :
    (setLineRecord l v s).notices = s.notices := rfl
@[simp] theorem setLineRecord_links (l : LineId) (v : ThrottleLine) (s : State) :
    (setLineRecord l v s).links = s.links := rfl
@[simp] theorem setLineRecord_adrsel (l : LineId) (v : ThrottleLine) (s : State) :
    (setLineRecord l v s).adrsel = s.adrsel := rfl
@[simp] theorem setLineRecord_inReset (l : LineId) (v : ThrottleLine) (s : State) :
    (setLineRecord l v s).inReset = s.inReset := rfl
@[simp] theorem setLineRecord_schedule (l : LineId) (v : ThrottleLine) (s : State) :
    (setLineRecord l v s).schedule = s.schedule := rfl
@[simp] theorem setLineRecord_pending (l : LineId) (v : ThrottleLine) (s : State) :
    (setLineRecord l v s).pending = s.pending := rfl

/-! ## The slot is emptied by a drop (section 2.6): `dropHint` -/

@[simp] theorem dropHint_uptime (s : State) : (dropHint s).uptime = s.uptime := rfl
@[simp] theorem dropHint_temps (s : State) : (dropHint s).temps = s.temps := rfl
@[simp] theorem dropHint_queue (s : State) : (dropHint s).queue = s.queue := rfl
@[simp] theorem dropHint_converter (s : State) : (dropHint s).converter = s.converter := rfl
@[simp] theorem dropHint_powers (s : State) : (dropHint s).powers = s.powers := rfl
@[simp] theorem dropHint_restFail (s : State) : (dropHint s).restFail = s.restFail := rfl
@[simp] theorem dropHint_inputs (s : State) : (dropHint s).inputs = s.inputs := rfl
@[simp] theorem dropHint_candidate (s : State) : (dropHint s).candidate = s.candidate := rfl
@[simp] theorem dropHint_dwell (s : State) : (dropHint s).dwell = s.dwell := rfl
@[simp] theorem dropHint_committed (s : State) : (dropHint s).committed = s.committed := rfl
@[simp] theorem dropHint_enterDwell (s : State) : (dropHint s).enterDwell = s.enterDwell := rfl
@[simp] theorem dropHint_relaxDwell (s : State) : (dropHint s).relaxDwell = s.relaxDwell := rfl
@[simp] theorem dropHint_hint (s : State) : (dropHint s).hint = none := rfl
@[simp] theorem dropHint_effective (s : State) : (dropHint s).effective = s.effective := rfl
@[simp] theorem dropHint_profile (s : State) : (dropHint s).profile = s.profile := rfl
@[simp] theorem dropHint_skin (s : State) : (dropHint s).skin = s.skin := rfl
@[simp] theorem dropHint_column (s : State) : (dropHint s).column = s.column := rfl
@[simp] theorem dropHint_zones (s : State) : (dropHint s).zones = s.zones := rfl
@[simp] theorem dropHint_thermal (s : State) : (dropHint s).thermal = s.thermal := rfl
@[simp] theorem dropHint_accounts (s : State) : (dropHint s).accounts = s.accounts := rfl
@[simp] theorem dropHint_domains (s : State) : (dropHint s).domains = s.domains := rfl
@[simp] theorem dropHint_report (s : State) : (dropHint s).report = s.report := rfl
@[simp] theorem dropHint_supplyCfg (s : State) : (dropHint s).supplyCfg = s.supplyCfg := rfl
@[simp] theorem dropHint_supply (s : State) : (dropHint s).supply = s.supply := rfl
@[simp] theorem dropHint_watch (s : State) : (dropHint s).watch = s.watch := rfl
@[simp] theorem dropHint_caps (s : State) : (dropHint s).caps = s.caps := rfl
@[simp] theorem dropHint_contributors (s : State) : (dropHint s).contributors = s.contributors := rfl
@[simp] theorem dropHint_grants (s : State) : (dropHint s).grants = s.grants := rfl
@[simp] theorem dropHint_compliance (s : State) : (dropHint s).compliance = s.compliance := rfl
@[simp] theorem dropHint_lines (s : State) : (dropHint s).lines = s.lines := rfl
@[simp] theorem dropHint_faults (s : State) : (dropHint s).faults = s.faults := rfl
@[simp] theorem dropHint_severity (s : State) : (dropHint s).severity = s.severity := rfl
@[simp] theorem dropHint_mode (s : State) : (dropHint s).mode = s.mode := rfl
@[simp] theorem dropHint_notices (s : State) :
    (dropHint s).notices = s.notices.map (NoticePort.raise .hintDropped) := rfl
@[simp] theorem dropHint_links (s : State) : (dropHint s).links = s.links := rfl
@[simp] theorem dropHint_adrsel (s : State) : (dropHint s).adrsel = s.adrsel := rfl
@[simp] theorem dropHint_inReset (s : State) : (dropHint s).inReset = s.inReset := rfl
@[simp] theorem dropHint_schedule (s : State) : (dropHint s).schedule = s.schedule := rfl
@[simp] theorem dropHint_pending (s : State) : (dropHint s).pending = s.pending := rfl

end Sys2Proof.Machine
end

