-- ==== Sys2Proof/Laws/Frames.lean ====
section
/-!
SUPPORT. What each shared operation can change, said once per operation. A relation between the state before and the state
after says that the two agree once the named fields are erased; a value that does not look at the erased fields follows
by `.same`.
-/

namespace Sys2Proof.Machine

open Sys2Proof

/-! ## The relations -/

/-- t comes from s by a raise and changes of the log. -/
def Logged (s t : State) : Prop := t.withoutLog = s.withoutLog

/-- t comes from s by offers. -/
def Offered (s t : State) : Prop := t.withoutOffers = s.withoutOffers

/-- t comes from s by the limit chain. -/
def Limited (s t : State) : Prop := t.withoutLimits = s.withoutLimits

/-- t comes from s by what a column switch reaches. -/
def Switched (s t : State) : Prop :=
  t.withoutSwitch = s.withoutSwitch

/-- t comes from s by what leaving ACTIVE reaches. -/
def Fallen (s t : State) : Prop :=
  t.withoutFall
    = s.withoutFall

/-- t comes from s by the end of an event. -/
def Ended (s t : State) : Prop := t.withoutEnd = s.withoutEnd

theorem Logged.trans {s t u : State} (h : Logged s t) (h' : Logged t u) : Logged s u := Eq.trans h' h
theorem Offered.trans {s t u : State} (h : Offered s t) (h' : Offered t u) : Offered s u := Eq.trans h' h
theorem Limited.trans {s t u : State} (h : Limited s t) (h' : Limited t u) : Limited s u := Eq.trans h' h
theorem Switched.trans {s t u : State} (h : Switched s t) (h' : Switched t u) : Switched s u := Eq.trans h' h
theorem Fallen.trans {s t u : State} (h : Fallen s t) (h' : Fallen t u) : Fallen s u := Eq.trans h' h
theorem Ended.trans {s t u : State} (h : Ended s t) (h' : Ended t u) : Ended s u := Eq.trans h' h

/-- A value that does not look at the erased fields is the same in two states that agree once they are erased. -/
theorem same_of_erased {α : Type} (erase : State → State) (f : State → α) (blind : ∀ u, f (erase u) = f u) {s t : State}
    (h : erase t = erase s) : f t = f s := by
  rw [← blind t, h, blind s]

theorem Logged.same {α : Type} (f : State → α) {s t : State} (h : Logged s t)
    (blind : ∀ u : State, f u.withoutLog = f u) : f t = f s :=
  same_of_erased State.withoutLog f blind h

theorem Offered.same {α : Type} (f : State → α) {s t : State} (h : Offered s t)
    (blind : ∀ u : State, f u.withoutOffers = f u) : f t = f s :=
  same_of_erased State.withoutOffers f blind h

theorem Limited.same {α : Type} (f : State → α) {s t : State} (h : Limited s t)
    (blind : ∀ u : State, f u.withoutLimits = f u) : f t = f s :=
  same_of_erased State.withoutLimits f blind h

theorem Switched.same {α : Type} (f : State → α) {s t : State} (h : Switched s t)
    (blind : ∀ u : State, f u.withoutSwitch = f u) : f t = f s :=
  same_of_erased State.withoutSwitch f blind h

theorem Fallen.same {α : Type} (f : State → α) {s t : State} (h : Fallen s t)
    (blind : ∀ u : State, f u.withoutFall = f u) : f t = f s :=
  same_of_erased State.withoutFall f blind h

theorem Ended.same {α : Type} (f : State → α) {s t : State} (h : Ended s t)
    (blind : ∀ u : State, f u.withoutEnd = f u) : f t = f s :=
  same_of_erased State.withoutEnd f blind h

theorem Offered.limited {s t : State} (h : Offered s t) : Limited s t :=
  h.same State.withoutLimits fun _ => rfl

theorem Logged.switched {s t : State} (h : Logged s t) : Switched s t :=
  h.same State.withoutSwitch fun _ => rfl

theorem Limited.switched {s t : State} (h : Limited s t) : Switched s t :=
  h.same State.withoutSwitch fun _ => rfl

theorem Switched.fallen {s t : State} (h : Switched s t) : Fallen s t :=
  h.same State.withoutFall fun _ => rfl

theorem Offered.inAnyOrder (todo : List (State → State)) (each : ∀ f ∈ todo, ∀ s, Offered s (f s)) (s : State) :
    Offered s (inAnyOrder todo s) :=
  inAnyOrder_same State.withoutOffers (fun _ _ => rfl) todo each s

theorem Limited.inAnyOrder (todo : List (State → State)) (each : ∀ f ∈ todo, ∀ s, Limited s (f s)) (s : State) :
    Limited s (inAnyOrder todo s) :=
  inAnyOrder_same State.withoutLimits (fun _ _ => rfl) todo each s

theorem Switched.inAnyOrder (todo : List (State → State)) (each : ∀ f ∈ todo, ∀ s, Switched s (f s)) (s : State) :
    Switched s (inAnyOrder todo s) :=
  inAnyOrder_same State.withoutSwitch (fun _ _ => rfl) todo each s

theorem Fallen.inAnyOrder (todo : List (State → State)) (each : ∀ f ∈ todo, ∀ s, Fallen s (f s)) (s : State) :
    Fallen s (inAnyOrder todo s) :=
  inAnyOrder_same State.withoutFall
    (fun _ _ => rfl) todo each s

/-! ## Notices and log -/

theorem raise_logged (k : NoticeKind) (s : State) : Logged s (raise k s) := rfl

/-- An occurrence writes the log, the summary and the notices. -/
theorem occur_logged (kind : FaultKind) (n : Nat) (v : Option Int) (s : State) : Logged s (occur kind n v s) := by
  unfold occur
  split <;> rfl

theorem endCondition_logged (kind : FaultKind) (n : Nat) (s : State) : Logged s (endCondition kind n s) := rfl

/-! ## Resolver and arbiter -/

/-- A resolution writes grants, compliance and notices. -/
theorem resolve_offered (d : DomainId) (s : State) : Offered s (resolve d s) := by
  unfold resolve startSettle raise
  dsimp only
  split
  · rfl
  · split
    · split <;> rfl
    · rfl

theorem resolve_supply (d : DomainId) (s : State) :
    (resolve d s).supply = s.supply ∧ (resolve d s).contributors = s.contributors
      ∧ (resolve d s).schedule = s.schedule := by
  unfold resolve startSettle raise
  dsimp only
  split
  · exact ⟨rfl, rfl, rfl⟩
  · split
    · split <;> exact ⟨rfl, rfl, rfl⟩
    · exact ⟨rfl, rfl, rfl⟩

theorem offerAllowanceToResolver_offered (d : DomainId) (s : State) : Offered s (offerAllowanceToResolver d s) :=
  Eq.trans (resolve_offered d _) rfl

theorem offerShareToResolver_offered (d : DomainId) (s : State) : Offered s (offerShareToResolver d s) :=
  Eq.trans (resolve_offered d _) rfl

theorem offerPercentToResolver_offered (d : DomainId) (s : State) : Offered s (offerPercentToResolver d s) :=
  Eq.trans (resolve_offered d _) rfl

theorem offerCapsToResolver_offered (d : DomainId) (s : State) : Offered s (offerCapsToResolver d s) :=
  Eq.trans (resolve_offered d _) rfl

theorem offerShareIfChanged_offered (before : PerDomain (Option Nat)) (d : DomainId) (s : State) :
    Offered s (offerShareIfChanged before d s) := by
  unfold offerShareIfChanged
  split
  · rfl
  · exact offerShareToResolver_offered d s

theorem offerShareIfChanged_supply (before : PerDomain (Option Nat)) (d : DomainId) (s : State) :
    (offerShareIfChanged before d s).supply = s.supply := by
  unfold offerShareIfChanged
  split
  · rfl
  · exact (resolve_supply d _).1

theorem recomputeShares_offered (s : State) : Offered s (recomputeShares s) :=
  ((Offered.trans (t := { s with supply := allocationOf s }) rfl (offerShareIfChanged_offered _ _ _)).trans
    (offerShareIfChanged_offered _ _ _)).trans (offerShareIfChanged_offered _ _ _)

/-- A recomputation stores the allocation of the inputs as they stood. -/
@[simp] theorem recomputeShares_supply (s : State) : (recomputeShares s).supply = allocationOf s := by
  simp [recomputeShares, offerShareIfChanged_supply]

theorem offerAllowance_offered (d : DomainId) (s : State) : Offered s (offerAllowance d s) := by
  apply Offered.inAnyOrder
  simp only [List.mem_cons, List.not_mem_nil, or_false]
  rintro f (rfl | rfl) t
  · exact recomputeShares_offered t
  · exact offerAllowanceToResolver_offered d t

/-! ## Accounts and thermal percent -/

/-- The end of an event at an account stores it, with the allowance that its state selects, and otherwise offers. -/
theorem settleAccount_offered (d : DomainId) (next : Account) (s : State) :
    Offered { s with accounts := s.accounts.set d { next with allowance := next.selected } }
      (settleAccount d next s) := by
  have raised : ∀ c : Prop, [Decidable c] → ∀ t : State, Offered t (if c then t else raise .burst t) := by
    intro c _ t
    split <;> rfl
  unfold settleAccount
  dsimp only
  by_cases h : next.selected = (s.accounts.get d).allowance
  · rw [if_pos h]
    exact raised _ _
  · rw [if_neg h]
    exact (raised _ _).trans (offerAllowance_offered d _)

theorem settleAccount_limited (d : DomainId) (next : Account) (s : State) : Limited s (settleAccount d next s) :=
  Eq.trans (settleAccount_offered d next s).limited rfl

@[simp] theorem settleAccount_accounts (d : DomainId) (next : Account) (s : State) :
    (settleAccount d next s).accounts = s.accounts.set d { next with allowance := next.selected } :=
  (settleAccount_offered d next s).same State.accounts fun _ => rfl

@[simp] theorem settleAccount_thermal (d : DomainId) (next : Account) (s : State) :
    (settleAccount d next s).thermal = s.thermal :=
  (settleAccount_offered d next s).same State.thermal fun _ => rfl

theorem accountSwitch_limited (d : DomainId) (s : State) : Limited s (accountSwitch d s) := settleAccount_limited d _ s

theorem accountThermal_limited (d : DomainId) (s : State) : Limited s (accountThermal d s) :=
  settleAccount_limited d _ s

theorem accountDelivery_limited (d : DomainId) (p dt : Nat) (s : State) : Limited s (accountDelivery d p dt s) :=
  settleAccount_limited d _ s

theorem accountRecover_limited (d : DomainId) (s : State) : Limited s (accountRecover d s) :=
  settleAccount_limited d _ s

theorem offerThermal_limited (d : DomainId) (s : State) : Limited s (offerThermal d s) := by
  apply Limited.inAnyOrder
  simp only [List.mem_cons, List.not_mem_nil, or_false]
  rintro f (rfl | rfl) t
  · exact accountThermal_limited d t
  · exact (offerPercentToResolver_offered d t).limited

theorem recomputeThermalOf_limited (d : DomainId) (s : State) : Limited s (recomputeThermalOf d s) := by
  unfold recomputeThermalOf
  dsimp only
  split
  · rfl
  · exact Eq.trans (offerThermal_limited d _) rfl

theorem recomputeThermal_limited (s : State) : Limited s (recomputeThermal s) := by
  apply Limited.inAnyOrder
  simp only [List.mem_cons, List.not_mem_nil, or_false]
  rintro f (rfl | rfl | rfl) t <;> exact recomputeThermalOf_limited _ t

/-! ## Column switches -/

theorem setZoneRecord_switched (z : ZoneId) (v : Zone) (s : State) : Switched s (setZoneRecord z v s) := rfl

theorem tripCheck_switched (z : ZoneId) (s : State) : Switched s (tripCheck z s) := by
  unfold tripCheck
  dsimp only
  split
  · rfl
  · split
    · split
      · exact ((setZoneRecord_switched _ _ _).trans (occur_logged _ _ _ _).switched).trans (raise_logged _ _).switched
      · rfl
    · split
      · exact ((setZoneRecord_switched _ _ _).trans (endCondition_logged _ _ _).switched).trans
          (raise_logged _ _).switched
      · rfl
    · rfl
    · rfl

theorem moveTo_switched (z : ZoneId) (n : Nat) (s : State) : Switched s (moveTo z n s) := rfl

theorem ladderUp_switched (z : ZoneId) (s : State) : Switched s (ladderUp z s) := by
  unfold ladderUp
  dsimp only
  split
  · rfl
  · split <;> rfl

theorem ladderUpdate_switched (z : ZoneId) (s : State) : Switched s (ladderUpdate z s) := by
  unfold ladderUpdate
  dsimp only
  split
  · rfl
  · split
    · exact ladderUp_switched _ _
    · split <;> rfl

theorem zoneSwitch_switched (z : ZoneId) (s : State) : Switched s (zoneSwitch z s) := by
  unfold zoneSwitch
  split
  · exact (tripCheck_switched z s).trans (ladderUp_switched z _)
  · rfl

theorem zonesSwitch_switched (s : State) : Switched s (zonesSwitch s) := by
  refine Switched.trans (Switched.inAnyOrder _ ?_ s) (recomputeThermal_limited _).switched
  simp only [List.mem_cons, List.not_mem_nil, or_false]
  rintro f (rfl | rfl | rfl | rfl) t <;> exact zoneSwitch_switched _ t

theorem announceSwitch_switched (s : State) : Switched s (announceSwitch s) := by
  refine Switched.inAnyOrder _ ?_ s
  simp only [List.mem_cons, List.not_mem_nil, or_false]
  rintro f (rfl | rfl | rfl | rfl | rfl) t
  · exact zonesSwitch_switched t
  · exact (accountSwitch_limited _ t).switched
  · exact (accountSwitch_limited _ t).switched
  · exact (accountSwitch_limited _ t).switched
  · exact (recomputeShares_offered t).limited.switched

theorem updateZone_switched (z : ZoneId) (sum : Int) (s : State) : Switched s (updateZone z sum s) := by
  have checked := (setZoneRecord_switched z ((s.zones.get z).estimated (rawOf sum)) s).trans (tripCheck_switched z _)
  unfold updateZone
  dsimp only
  split
  · exact (checked.trans (ladderUp_switched _ _)).trans (recomputeThermal_limited _).switched
  · exact (checked.trans (ladderUpdate_switched _ _)).trans (recomputeThermal_limited _).switched

theorem reselectDomain_limited (d : DomainId) (s : State) : Limited s (reselectDomain d s) := by
  apply Limited.inAnyOrder
  simp only [List.mem_cons, List.not_mem_nil, or_false]
  rintro f (rfl | rfl) t
  · exact accountSwitch_limited d t
  · exact (recomputeShares_offered t).limited

theorem reselectZone_switched (z : ZoneId) (s : State) : Switched s (reselectZone z s) :=
  (zoneSwitch_switched z s).trans (recomputeThermal_limited _).switched

/-! ## Changes of mode and posture -/

theorem deriveColumn_fallen (s : State) : Fallen s (deriveColumn s) := by
  unfold deriveColumn
  dsimp only
  split
  · rfl
  · exact Eq.trans (announceSwitch_switched _).fallen rfl

theorem deriveEffective_fallen (s : State) : Fallen s (deriveEffective s) := by
  unfold deriveEffective
  dsimp only
  split
  · rfl
  · exact Eq.trans (deriveColumn_fallen _) rfl

theorem dropHint_fallen (s : State) : Fallen s (dropHint s) := rfl

theorem clearCapS_fallen (d : DomainId) (s : State) : Fallen s (clearCapS d s) := by
  unfold clearCapS
  dsimp only
  split
  · rfl
  · refine Eq.trans (Limited.inAnyOrder _ ?_ _).switched.fallen rfl
    simp only [List.mem_cons, List.not_mem_nil, or_false]
    rintro f (rfl | rfl) t
    · exact (offerCapsToResolver_offered d t).limited
    · exact (recomputeShares_offered t).limited

theorem dropSystemHint_fallen (s : State) : Fallen s (dropSystemHint s) := by
  unfold dropSystemHint
  split
  · exact (dropHint_fallen s).trans (deriveEffective_fallen _)
  · rfl

theorem leaveActive_fallen (s : State) : Fallen s (leaveActive s) := by
  refine Eq.trans (Fallen.inAnyOrder _ ?_ _) rfl
  simp only [List.mem_cons, List.not_mem_nil, or_false]
  rintro f (rfl | rfl | rfl | rfl | rfl) t
  · exact deriveColumn_fallen t
  · exact clearCapS_fallen _ t
  · exact clearCapS_fallen _ t
  · exact clearCapS_fallen _ t
  · exact dropSystemHint_fallen t

theorem occurFatal_fallen (k : FaultKind) (n : Nat) (v : Option Int) (s : State) : Fallen s (occurFatal k n v s) := by
  unfold occurFatal
  dsimp only
  split
  · exact (occur_logged _ _ _ _).switched.fallen
  · exact (occur_logged _ _ _ _).switched.fallen.trans (leaveActive_fallen _)

theorem followSources_fallen (z : ZoneId) (s : State) : Fallen s (followSources z s) := by
  unfold followSources
  dsimp only
  split
  · rfl
  · split
    · exact (setZoneRecord_switched _ _ _).fallen.trans (occurFatal_fallen _ _ _ _)
    · rfl

theorem followAllSources_fallen (s : State) : Fallen s (followAllSources s) := by
  refine Fallen.inAnyOrder _ ?_ s
  simp only [List.mem_cons, List.not_mem_nil, or_false]
  rintro f (rfl | rfl | rfl | rfl) t <;> exact followSources_fallen _ t

/-! ## Lines and the end of an event -/

theorem compareLine_ended (l : LineId) (e : Comparison) (s : State) : Ended s (compareLine l e s) := by
  unfold compareLine
  dsimp only
  split
  · split <;> exact rfl
  · split <;> exact rfl

theorem deriveLine_ended (fresh : Bool) (l : LineId) (s : State) : Ended s (deriveLine fresh l s) := by
  unfold deriveLine
  dsimp only
  split
  · refine Ended.trans ?_ (compareLine_ended _ _ _)
    exact rfl
  · exact rfl

theorem deriveLines_ended (b0 b1 b2 b3 : Bool) (s : State) :
    Ended s (deriveLine b3 .thr3 (deriveLine b2 .thr2 (deriveLine b1 .thr1 (deriveLine b0 .thr0 s)))) := by
  refine Ended.trans ?_ (deriveLine_ended _ _ _)
  refine Ended.trans ?_ (deriveLine_ended _ _ _)
  refine Ended.trans ?_ (deriveLine_ended _ _ _)
  exact deriveLine_ended _ _ _

theorem endEventWith_ended (fresh : Option LineId) (s : State) : Ended s (endEventWith fresh s) := by
  unfold endEventWith
  dsimp only
  generalize hd : deriveLine (fresh == some .thr3) .thr3 _ = derived
  have h : Ended s derived := hd ▸ deriveLines_ended _ _ _ _ s
  split
  · exact h
  · exact h.trans rfl

theorem endEvent_ended (s : State) : Ended s (endEvent s) := endEventWith_ended none s

end Sys2Proof.Machine
end

