-- ==== Sys2Proof/Laws/Tables.lean ====
section
/-!
SUPPORT. The laws of the tables of Word.lean: what an entry is after one is replaced, and tables equal entry by entry.
-/

namespace Sys2Proof

@[simp] theorem PerPort.get_set_self (v : PerPort α) (i : Port) (x : α) : (v.set i x).get i = x := by
  cases i <;> rfl

@[simp] theorem PerPort.get_set_of_ne (v : PerPort α) (i j : Port) (x : α) (h : j ≠ i) : (v.set i x).get j = v.get j := by
  cases i <;> cases j <;> first | rfl | exact absurd rfl h

theorem PerPort.get_set (v : PerPort α) (i j : Port) (x : α) : (v.set i x).get j = if j = i then x else v.get j := by
  cases i <;> cases j <;> rfl

@[simp] theorem PerPort.set_get_self (v : PerPort α) (i : Port) : v.set i (v.get i) = v := by
  cases i <;> rfl

@[simp] theorem PerPort.get_ofFn (f : Port → α) (i : Port) : (PerPort.ofFn f).get i = f i := by
  cases i <;> rfl

@[simp] theorem PerPort.get_map (f : α → β) (v : PerPort α) (i : Port) : (v.map f).get i = f (v.get i) := by
  cases i <;> rfl

theorem PerPort.ext_get (v w : PerPort α) (h : ∀ i, v.get i = w.get i) : v = w := by
  have h' := fun i => h i
  cases v; cases w
  simp only [PerPort.mk.injEq]
  exact ⟨h' .platform, h' .system⟩

@[simp] theorem Port.ofNumber_number (i : Port) : Port.ofNumber i.number = some i := by
  cases i <;> rfl

theorem Port.number_lt (i : Port) : i.number < 2 := by
  cases i <;> decide

theorem Port.mem_all (i : Port) : i ∈ Port.all := by
  cases i <;> simp [Port.all]

@[simp] theorem PerDomain.get_set_self (v : PerDomain α) (i : DomainId) (x : α) : (v.set i x).get i = x := by
  cases i <;> rfl

@[simp] theorem PerDomain.get_set_of_ne (v : PerDomain α) (i j : DomainId) (x : α) (h : j ≠ i) : (v.set i x).get j = v.get j := by
  cases i <;> cases j <;> first | rfl | exact absurd rfl h

theorem PerDomain.get_set (v : PerDomain α) (i j : DomainId) (x : α) : (v.set i x).get j = if j = i then x else v.get j := by
  cases i <;> cases j <;> rfl

@[simp] theorem PerDomain.set_get_self (v : PerDomain α) (i : DomainId) : v.set i (v.get i) = v := by
  cases i <;> rfl

@[simp] theorem PerDomain.get_ofFn (f : DomainId → α) (i : DomainId) : (PerDomain.ofFn f).get i = f i := by
  cases i <;> rfl

@[simp] theorem PerDomain.get_map (f : α → β) (v : PerDomain α) (i : DomainId) : (v.map f).get i = f (v.get i) := by
  cases i <;> rfl

theorem PerDomain.ext_get (v w : PerDomain α) (h : ∀ i, v.get i = w.get i) : v = w := by
  have h' := fun i => h i
  cases v; cases w
  simp only [PerDomain.mk.injEq]
  exact ⟨h' .d0, h' .d1, h' .d2⟩

@[simp] theorem DomainId.ofNumber_number (i : DomainId) : DomainId.ofNumber i.number = some i := by
  cases i <;> rfl

theorem DomainId.number_lt (i : DomainId) : i.number < 3 := by
  cases i <;> decide

theorem DomainId.mem_all (i : DomainId) : i ∈ DomainId.all := by
  cases i <;> simp [DomainId.all]

@[simp] theorem PerZone.get_set_self (v : PerZone α) (i : ZoneId) (x : α) : (v.set i x).get i = x := by
  cases i <;> rfl

@[simp] theorem PerZone.get_set_of_ne (v : PerZone α) (i j : ZoneId) (x : α) (h : j ≠ i) : (v.set i x).get j = v.get j := by
  cases i <;> cases j <;> first | rfl | exact absurd rfl h

theorem PerZone.get_set (v : PerZone α) (i j : ZoneId) (x : α) : (v.set i x).get j = if j = i then x else v.get j := by
  cases i <;> cases j <;> rfl

@[simp] theorem PerZone.set_get_self (v : PerZone α) (i : ZoneId) : v.set i (v.get i) = v := by
  cases i <;> rfl

@[simp] theorem PerZone.get_ofFn (f : ZoneId → α) (i : ZoneId) : (PerZone.ofFn f).get i = f i := by
  cases i <;> rfl

@[simp] theorem PerZone.get_map (f : α → β) (v : PerZone α) (i : ZoneId) : (v.map f).get i = f (v.get i) := by
  cases i <;> rfl

theorem PerZone.ext_get (v w : PerZone α) (h : ∀ i, v.get i = w.get i) : v = w := by
  have h' := fun i => h i
  cases v; cases w
  simp only [PerZone.mk.injEq]
  exact ⟨h' .z0, h' .z1, h' .z2, h' .z3⟩

@[simp] theorem ZoneId.ofNumber_number (i : ZoneId) : ZoneId.ofNumber i.number = some i := by
  cases i <;> rfl

theorem ZoneId.number_lt (i : ZoneId) : i.number < 4 := by
  cases i <;> decide

theorem ZoneId.mem_all (i : ZoneId) : i ∈ ZoneId.all := by
  cases i <;> simp [ZoneId.all]

@[simp] theorem PerTemp.get_set_self (v : PerTemp α) (i : TempId) (x : α) : (v.set i x).get i = x := by
  cases i <;> rfl

@[simp] theorem PerTemp.get_set_of_ne (v : PerTemp α) (i j : TempId) (x : α) (h : j ≠ i) : (v.set i x).get j = v.get j := by
  cases i <;> cases j <;> first | rfl | exact absurd rfl h

theorem PerTemp.get_set (v : PerTemp α) (i j : TempId) (x : α) : (v.set i x).get j = if j = i then x else v.get j := by
  cases i <;> cases j <;> rfl

@[simp] theorem PerTemp.set_get_self (v : PerTemp α) (i : TempId) : v.set i (v.get i) = v := by
  cases i <;> rfl

@[simp] theorem PerTemp.get_ofFn (f : TempId → α) (i : TempId) : (PerTemp.ofFn f).get i = f i := by
  cases i <;> rfl

@[simp] theorem PerTemp.get_map (f : α → β) (v : PerTemp α) (i : TempId) : (v.map f).get i = f (v.get i) := by
  cases i <;> rfl

theorem PerTemp.ext_get (v w : PerTemp α) (h : ∀ i, v.get i = w.get i) : v = w := by
  have h' := fun i => h i
  cases v; cases w
  simp only [PerTemp.mk.injEq]
  exact ⟨h' .t0, h' .t1, h' .t2, h' .t3, h' .t4, h' .t5, h' .t6, h' .t7⟩

@[simp] theorem TempId.ofNumber_number (i : TempId) : TempId.ofNumber i.number = some i := by
  cases i <;> rfl

theorem TempId.number_lt (i : TempId) : i.number < 8 := by
  cases i <;> decide

theorem TempId.mem_all (i : TempId) : i ∈ TempId.all := by
  cases i <;> simp [TempId.all]

@[simp] theorem PerPower.get_set_self (v : PerPower α) (i : PowerId) (x : α) : (v.set i x).get i = x := by
  cases i <;> rfl

@[simp] theorem PerPower.get_set_of_ne (v : PerPower α) (i j : PowerId) (x : α) (h : j ≠ i) : (v.set i x).get j = v.get j := by
  cases i <;> cases j <;> first | rfl | exact absurd rfl h

theorem PerPower.get_set (v : PerPower α) (i j : PowerId) (x : α) : (v.set i x).get j = if j = i then x else v.get j := by
  cases i <;> cases j <;> rfl

@[simp] theorem PerPower.set_get_self (v : PerPower α) (i : PowerId) : v.set i (v.get i) = v := by
  cases i <;> rfl

@[simp] theorem PerPower.get_ofFn (f : PowerId → α) (i : PowerId) : (PerPower.ofFn f).get i = f i := by
  cases i <;> rfl

@[simp] theorem PerPower.get_map (f : α → β) (v : PerPower α) (i : PowerId) : (v.map f).get i = f (v.get i) := by
  cases i <;> rfl

theorem PerPower.ext_get (v w : PerPower α) (h : ∀ i, v.get i = w.get i) : v = w := by
  have h' := fun i => h i
  cases v; cases w
  simp only [PerPower.mk.injEq]
  exact ⟨h' .pm0, h' .pm1, h' .pm2, h' .pm3, h' .pm4⟩

@[simp] theorem PowerId.ofNumber_number (i : PowerId) : PowerId.ofNumber i.number = some i := by
  cases i <;> rfl

theorem PowerId.number_lt (i : PowerId) : i.number < 5 := by
  cases i <;> decide

theorem PowerId.mem_all (i : PowerId) : i ∈ PowerId.all := by
  cases i <;> simp [PowerId.all]

@[simp] theorem PerInput.get_set_self (v : PerInput α) (i : InputId) (x : α) : (v.set i x).get i = x := by
  cases i <;> rfl

@[simp] theorem PerInput.get_set_of_ne (v : PerInput α) (i j : InputId) (x : α) (h : j ≠ i) : (v.set i x).get j = v.get j := by
  cases i <;> cases j <;> first | rfl | exact absurd rfl h

theorem PerInput.get_set (v : PerInput α) (i j : InputId) (x : α) : (v.set i x).get j = if j = i then x else v.get j := by
  cases i <;> cases j <;> rfl

@[simp] theorem PerInput.set_get_self (v : PerInput α) (i : InputId) : v.set i (v.get i) = v := by
  cases i <;> rfl

@[simp] theorem PerInput.get_ofFn (f : InputId → α) (i : InputId) : (PerInput.ofFn f).get i = f i := by
  cases i <;> rfl

@[simp] theorem PerInput.get_map (f : α → β) (v : PerInput α) (i : InputId) : (v.map f).get i = f (v.get i) := by
  cases i <;> rfl

theorem PerInput.ext_get (v w : PerInput α) (h : ∀ i, v.get i = w.get i) : v = w := by
  have h' := fun i => h i
  cases v; cases w
  simp only [PerInput.mk.injEq]
  exact ⟨h' .lid, h' .acin, h' .motion, h' .contact⟩

@[simp] theorem InputId.ofNumber_number (i : InputId) : InputId.ofNumber i.number = some i := by
  cases i <;> rfl

theorem InputId.number_lt (i : InputId) : i.number < 4 := by
  cases i <;> decide

theorem InputId.mem_all (i : InputId) : i ∈ InputId.all := by
  cases i <;> simp [InputId.all]

@[simp] theorem PerLine.get_set_self (v : PerLine α) (i : LineId) (x : α) : (v.set i x).get i = x := by
  cases i <;> rfl

@[simp] theorem PerLine.get_set_of_ne (v : PerLine α) (i j : LineId) (x : α) (h : j ≠ i) : (v.set i x).get j = v.get j := by
  cases i <;> cases j <;> first | rfl | exact absurd rfl h

theorem PerLine.get_set (v : PerLine α) (i j : LineId) (x : α) : (v.set i x).get j = if j = i then x else v.get j := by
  cases i <;> cases j <;> rfl

@[simp] theorem PerLine.set_get_self (v : PerLine α) (i : LineId) : v.set i (v.get i) = v := by
  cases i <;> rfl

@[simp] theorem PerLine.get_ofFn (f : LineId → α) (i : LineId) : (PerLine.ofFn f).get i = f i := by
  cases i <;> rfl

@[simp] theorem PerLine.get_map (f : α → β) (v : PerLine α) (i : LineId) : (v.map f).get i = f (v.get i) := by
  cases i <;> rfl

theorem PerLine.ext_get (v w : PerLine α) (h : ∀ i, v.get i = w.get i) : v = w := by
  have h' := fun i => h i
  cases v; cases w
  simp only [PerLine.mk.injEq]
  exact ⟨h' .thr0, h' .thr1, h' .thr2, h' .thr3⟩

@[simp] theorem LineId.ofNumber_number (i : LineId) : LineId.ofNumber i.number = some i := by
  cases i <;> rfl

theorem LineId.number_lt (i : LineId) : i.number < 4 := by
  cases i <;> decide

theorem LineId.mem_all (i : LineId) : i ∈ LineId.all := by
  cases i <;> simp [LineId.all]

@[simp] theorem PerColumn.get_set_self (v : PerColumn α) (i : Column) (x : α) : (v.set i x).get i = x := by
  cases i <;> rfl

@[simp] theorem PerColumn.get_set_of_ne (v : PerColumn α) (i j : Column) (x : α) (h : j ≠ i) : (v.set i x).get j = v.get j := by
  cases i <;> cases j <;> first | rfl | exact absurd rfl h

theorem PerColumn.get_set (v : PerColumn α) (i j : Column) (x : α) : (v.set i x).get j = if j = i then x else v.get j := by
  cases i <;> cases j <;> rfl

@[simp] theorem PerColumn.set_get_self (v : PerColumn α) (i : Column) : v.set i (v.get i) = v := by
  cases i <;> rfl

@[simp] theorem PerColumn.get_ofFn (f : Column → α) (i : Column) : (PerColumn.ofFn f).get i = f i := by
  cases i <;> rfl

@[simp] theorem PerColumn.get_map (f : α → β) (v : PerColumn α) (i : Column) : (v.map f).get i = f (v.get i) := by
  cases i <;> rfl

theorem PerColumn.ext_get (v w : PerColumn α) (h : ∀ i, v.get i = w.get i) : v = w := by
  have h' := fun i => h i
  cases v; cases w
  simp only [PerColumn.mk.injEq]
  exact ⟨h' .safe, h' .unsettled, h' .desk, h' .lap, h' .bag⟩

@[simp] theorem Column.ofNumber_number (i : Column) : Column.ofNumber i.number = some i := by
  cases i <;> rfl

theorem Column.number_lt (i : Column) : i.number < 5 := by
  cases i <;> decide

theorem Column.mem_all (i : Column) : i ∈ Column.all := by
  cases i <;> simp [Column.all]

/-! ## Statements about every instance of a kind -/

theorem Port.forall_iff {p : Port → Prop} : (∀ i, p i) ↔ p .platform ∧ p .system :=
  ⟨fun h => ⟨h _, h _⟩, fun h i => by cases i <;> simp only [h]⟩

theorem Port.exists_iff {p : Port → Prop} : (∃ i, p i) ↔ p .platform ∨ p .system :=
  ⟨fun ⟨i, h⟩ => by cases i <;> simp only [h, true_or, or_true], fun h => by
    rcases h with h | h <;> exact ⟨_, h⟩⟩

theorem DomainId.forall_iff {p : DomainId → Prop} : (∀ i, p i) ↔ p .d0 ∧ p .d1 ∧ p .d2 :=
  ⟨fun h => ⟨h _, h _, h _⟩, fun h i => by cases i <;> simp only [h]⟩

theorem DomainId.exists_iff {p : DomainId → Prop} : (∃ i, p i) ↔ p .d0 ∨ p .d1 ∨ p .d2 :=
  ⟨fun ⟨i, h⟩ => by cases i <;> simp only [h, true_or, or_true], fun h => by
    rcases h with h | h | h <;> exact ⟨_, h⟩⟩

theorem ZoneId.forall_iff {p : ZoneId → Prop} : (∀ i, p i) ↔ p .z0 ∧ p .z1 ∧ p .z2 ∧ p .z3 :=
  ⟨fun h => ⟨h _, h _, h _, h _⟩, fun h i => by cases i <;> simp only [h]⟩

theorem ZoneId.exists_iff {p : ZoneId → Prop} : (∃ i, p i) ↔ p .z0 ∨ p .z1 ∨ p .z2 ∨ p .z3 :=
  ⟨fun ⟨i, h⟩ => by cases i <;> simp only [h, true_or, or_true], fun h => by
    rcases h with h | h | h | h <;> exact ⟨_, h⟩⟩

theorem TempId.forall_iff {p : TempId → Prop} : (∀ i, p i) ↔ p .t0 ∧ p .t1 ∧ p .t2 ∧ p .t3 ∧ p .t4 ∧ p .t5 ∧ p .t6 ∧ p .t7 :=
  ⟨fun h => ⟨h _, h _, h _, h _, h _, h _, h _, h _⟩, fun h i => by cases i <;> simp only [h]⟩

theorem TempId.exists_iff {p : TempId → Prop} : (∃ i, p i) ↔ p .t0 ∨ p .t1 ∨ p .t2 ∨ p .t3 ∨ p .t4 ∨ p .t5 ∨ p .t6 ∨ p .t7 :=
  ⟨fun ⟨i, h⟩ => by cases i <;> simp only [h, true_or, or_true], fun h => by
    rcases h with h | h | h | h | h | h | h | h <;> exact ⟨_, h⟩⟩

theorem PowerId.forall_iff {p : PowerId → Prop} : (∀ i, p i) ↔ p .pm0 ∧ p .pm1 ∧ p .pm2 ∧ p .pm3 ∧ p .pm4 :=
  ⟨fun h => ⟨h _, h _, h _, h _, h _⟩, fun h i => by cases i <;> simp only [h]⟩

theorem PowerId.exists_iff {p : PowerId → Prop} : (∃ i, p i) ↔ p .pm0 ∨ p .pm1 ∨ p .pm2 ∨ p .pm3 ∨ p .pm4 :=
  ⟨fun ⟨i, h⟩ => by cases i <;> simp only [h, true_or, or_true], fun h => by
    rcases h with h | h | h | h | h <;> exact ⟨_, h⟩⟩

theorem InputId.forall_iff {p : InputId → Prop} : (∀ i, p i) ↔ p .lid ∧ p .acin ∧ p .motion ∧ p .contact :=
  ⟨fun h => ⟨h _, h _, h _, h _⟩, fun h i => by cases i <;> simp only [h]⟩

theorem InputId.exists_iff {p : InputId → Prop} : (∃ i, p i) ↔ p .lid ∨ p .acin ∨ p .motion ∨ p .contact :=
  ⟨fun ⟨i, h⟩ => by cases i <;> simp only [h, true_or, or_true], fun h => by
    rcases h with h | h | h | h <;> exact ⟨_, h⟩⟩

theorem LineId.forall_iff {p : LineId → Prop} : (∀ i, p i) ↔ p .thr0 ∧ p .thr1 ∧ p .thr2 ∧ p .thr3 :=
  ⟨fun h => ⟨h _, h _, h _, h _⟩, fun h i => by cases i <;> simp only [h]⟩

theorem LineId.exists_iff {p : LineId → Prop} : (∃ i, p i) ↔ p .thr0 ∨ p .thr1 ∨ p .thr2 ∨ p .thr3 :=
  ⟨fun ⟨i, h⟩ => by cases i <;> simp only [h, true_or, or_true], fun h => by
    rcases h with h | h | h | h <;> exact ⟨_, h⟩⟩

theorem Column.forall_iff {p : Column → Prop} : (∀ i, p i) ↔ p .safe ∧ p .unsettled ∧ p .desk ∧ p .lap ∧ p .bag :=
  ⟨fun h => ⟨h _, h _, h _, h _, h _⟩, fun h i => by cases i <;> simp only [h]⟩

theorem Column.exists_iff {p : Column → Prop} : (∃ i, p i) ↔ p .safe ∨ p .unsettled ∨ p .desk ∨ p .lap ∨ p .bag :=
  ⟨fun ⟨i, h⟩ => by cases i <;> simp only [h, true_or, or_true], fun h => by
    rcases h with h | h | h | h | h <;> exact ⟨_, h⟩⟩

end Sys2Proof
end

