-- ==== Sys2Proof/Laws/Requests.lean ====
section
/-!
SUPPORT. What a transaction, its receive buffer and taking a request can do, and what placing a reply changes; what an event does outside a
reset.
-/

namespace Sys2Proof.Machine

open Sys2Proof

/-! ## Resets and calls -/

/-- Outside a reset an event has its effect. -/
theorem outsideReset_running (f : State → State) (s : State) (h : s.inReset = false) : outsideReset f s = .next (f s) := by
  simp [outsideReset, h]

/-- While RST_N is low an event has none (R128). -/
theorem outsideReset_inReset (f : State → State) (s : State) (h : s.inReset = true) : outsideReset f s = .next s := by
  simp [outsideReset, h]

/-- What a property makes of an event: it holds after it where it holds before and after its effect. -/
theorem outsideReset_keeps (P : State → Prop) (f : State → State) (s t : State) (h : P s) (own : P (f s))
    (e : outsideReset f s = .next t) : P t := by
  unfold outsideReset at e
  split at e <;> cases e
  · exact h
  · exact own

/-- Outside a reset the part acknowledges a call of a port's own address (R167). -/
theorem acknowledges_call (s : State) (p : Port) (h : s.inReset = false) : s.acknowledges (s.call p) = true := by
  simp [State.acknowledges, State.call, h]

/-- A transaction that calls a port's own address reaches the port. -/
theorem atPort_call (p : Port) (f : Port → State → State) (s : State) (h : s.inReset = false) :
    atPort (s.call p) f s = .next (f p s) := by
  rw [atPort, if_pos (acknowledges_call s p h)]
  rfl

/-- A transaction that the part does not acknowledge is ignored (R167). -/
theorem atPort_ignored (call : Call) (f : Port → State → State) (s : State) (h : s.acknowledges call = false) :
    atPort call f s = .next s := by
  simp [atPort, h]

/-- What a property makes of a transaction: it holds after it where it holds before and after its effect at the port. -/
theorem atPort_keeps (P : State → Prop) (call : Call) (f : Port → State → State) (s t : State) (h : P s)
    (own : P (f call.port s)) (e : atPort call f s = .next t) : P t := by
  unfold atPort at e
  split at e <;> cases e
  · exact own
  · exact h

/-! ## Write transactions (R168) -/

/-- What receiving bytes does to a link that has stored at most 63. -/
theorem foldl_receive (bytes : List Byte) (v : Link) (h : v.buffer.length ≤ 63) :
    bytes.foldl Link.receive v =
      { v with
        buffer := v.buffer ++ bytes.take (63 - v.buffer.length)
        refused := v.refused + (bytes.length - (63 - v.buffer.length)) } := by
  induction bytes generalizing v with
  | nil => simp
  | cons b bytes ih =>
    rw [List.foldl_cons]
    by_cases hl : v.buffer.length < 63
    · have e : v.receive b = { v with buffer := v.buffer ++ [b] } := by simp [Link.receive, Link.acknowledgesByte, hl]
      have n : 63 - v.buffer.length = (63 - (v.buffer.length + 1)) + 1 := by omega
      rw [e, ih _ (by simpa using Nat.succ_le_of_lt hl), n]
      simp
    · have n : 63 - v.buffer.length = 0 := by omega
      have e : v.receive b = { v with refused := v.refused + 1 } := by simp [Link.receive, Link.acknowledgesByte, hl]
      rw [e, ih { v with refused := v.refused + 1 } h]
      simp [n]
      omega

/-- A write transaction leaves its first 63 bytes in the receive buffer and has refused the others (R168). -/
theorem receiveAll_eq (v : Link) (bytes : List Byte) :
    v.receiveAll bytes = { v with buffer := bytes.take 63, refused := bytes.length - 63 } := by
  rw [Link.receiveAll, foldl_receive _ _ (by simp)]
  simp

/-- The first 63 data bytes are acknowledged, and no later one is (R168). -/
theorem byteAcknowledged_iff (v : Link) (bytes : List Byte) (k : Nat) (h : k < bytes.length) :
    v.byteAcknowledged bytes k = true ↔ k < 63 := by
  simp [Link.byteAcknowledged, Link.acknowledgesByte, receiveAll_eq]
  omega

/-- The frame test at the end of a write is the test of its data bytes (R168). -/
@[simp] theorem holdsFrame_receiveAll (v : Link) (bytes : List Byte) :
    (v.receiveAll bytes).holdsFrame = frameWellFormed bytes := by
  rw [receiveAll_eq, Link.holdsFrame]
  by_cases h : bytes.length ≤ 63
  · rw [List.take_of_length_le h]
    simp [Nat.sub_eq_zero_of_le h]
  · have refused : (bytes.length - 63 == 0) = false := by
      simp only [beq_eq_false_iff_ne, ne_eq]
      omega
    have long : frameWellFormed bytes = false := by
      unfold frameWellFormed
      split
      · simp only [Config.frameBytesMax, h, decide_false, Bool.and_false, Bool.false_and]
      · rfl
    simp [refused, long]

/-- A well-formed frame is handed on as it was written. -/
theorem takeWrite_frame (port : Port) (bytes : List Byte) (taken : Byte → List Byte → State → State) (s : State)
    (h : frameWellFormed bytes = true) :
    takeWrite port bytes taken s = taken (bytes.headD 0) (frameBody bytes) s := by
  have short : bytes.length ≤ 63 := by
    unfold frameWellFormed at h
    split at h
    · simp only [Config.frameBytesMax, Bool.and_eq_true, decide_eq_true_eq] at h
      exact h.1.1.1.2
    · cases h
  rw [takeWrite, receiveWrite_links, PerPort.get_set_self, holdsFrame_receiveAll, h, if_pos rfl, receiveAll_eq,
    List.take_of_length_le short]

/-- A malformed write is refused, and does nothing else (R168). -/
theorem takeWrite_refused (port : Port) (bytes : List Byte) (taken : Byte → List Byte → State → State) (s : State)
    (h : frameWellFormed bytes = false) :
    takeWrite port bytes taken s =
      { s with
        links := s.links.set port
          { s.links.get port with buffer := [], refused := bytes.length - 63, slot := some badFrameReply } } := by
  rw [takeWrite, receiveWrite_links, PerPort.get_set_self, holdsFrame_receiveAll, h, if_neg Bool.false_ne_true, refuseWrite,
    receiveWrite_links, PerPort.get_set_self, receiveAll_eq]
  cases port <;> rfl

/-- What a property that does not look at the links makes of a write. -/
theorem takeWrite_keeps (P : State → Prop) (blind : ∀ s l, P s → P { s with links := l }) (port : Port)
    (bytes : List Byte) (taken : Byte → List Byte → State → State) (s : State) (h : P s)
    (own : ∀ kind body, P (taken kind body s)) : P (takeWrite port bytes taken s) := by
  unfold takeWrite
  dsimp only
  split
  · exact own _ _
  · exact blind _ _ (blind _ _ h)

/-! ## Requests -/

/-- s without its reply slots and receive buffers. -/
def State.withoutLinks (s : State) : State := { s with links := State.reset.links }

/-- A reply writes the links only. -/
@[simp] theorem answer_withoutLinks (p : Port) (k : Kind) (r : Reply) (s : State) :
    (answer p k r s).withoutLinks = s.withoutLinks := rfl

/-- A frame with a body of at most 60 bytes is well formed (R168). -/
theorem frameWellFormed_frame (kind : Byte) (body : List Byte) (h : body.length ≤ 60) :
    frameWellFormed (frame kind body) = true := by
  have n := length_frame kind body
  have z := byteSum_frame kind body
  have m : (BitVec.ofNat 8 body.length).toNat = body.length := by
    rw [BitVec.toNat_ofNat]
    omega
  rw [show frame kind body = kind :: BitVec.ofNat 8 body.length ::
    (body ++ [-(byteSum (kind :: BitVec.ofNat 8 body.length :: body))]) from rfl] at n z ⊢
  simp only [frameWellFormed, Config.frameBytesMax, Config.requestBodyMax, n, m, z]
  simp
  omega

/-- A request whose body has at most 60 bytes passes the frame test, and its body is checked as it was written. -/
theorem takeRequest_frame {α : Type} (kind : Kind) (port : Port) (shape : List Byte → Option α)
    (owner : α → State → State × Reply) (body : List Byte) (s : State) (h : body.length ≤ 60) :
    takeRequest kind port shape owner body s = checkRequest kind port shape owner body s := by
  rw [takeRequest, takeWrite_frame _ _ _ _ (frameWellFormed_frame _ _ h), frameBody_frame]

/-- What a property that does not look at the links makes of a request: it holds after every request where it holds after
the owner of every request. -/
theorem takeRequest_keeps {α : Type} (P : State → Prop) (blind : ∀ s l, P s → P { s with links := l })
    (kind : Kind) (port : Port) (shape : List Byte → Option α) (owner : α → State → State × Reply) (body : List Byte)
    (s : State) (h : P s)
    (own : ∀ body r, shape body = some r → Admitted kind port s → P (owner r s).1) :
    P (takeRequest kind port shape owner body s) := by
  refine takeWrite_keeps P blind port _ _ s h fun _ body => ?_
  unfold checkRequest
  split
  · exact blind _ _ h
  · split
    · exact blind _ _ h
    · split
      · exact blind _ _ h
      · rename_i h1 h2 _ r hr
        refine blind _ _ (own body r hr ⟨?_, ?_⟩)
        · simpa using h1
        · simpa using h2

/-- A request whose port is not listed is answered DENIED and does nothing else (check 3 of R169). -/
theorem checkRequest_denied {α : Type} (kind : Kind) (port : Port) (shape : List Byte → Option α)
    (owner : α → State → State × Reply) (body : List Byte) (s : State) (h : portListed kind port = false) :
    checkRequest kind port shape owner body s = answer port kind (.bare .denied) s := by
  simp [checkRequest, h]

/-- A request in a mode in which it is not taken is answered STATE and does nothing else (check 4 of R169). -/
theorem checkRequest_state {α : Type} (kind : Kind) (port : Port) (shape : List Byte → Option α)
    (owner : α → State → State × Reply) (body : List Byte) (s : State) (h : portListed kind port = true)
    (h' : modeAllows kind port s.mode = false) :
    checkRequest kind port shape owner body s = answer port kind (.bare .state) s := by
  simp [checkRequest, h, h']

/-- A request whose body has not the shape of its kind is answered INVALID and does nothing else (check 5 of R169). -/
theorem checkRequest_invalid {α : Type} (kind : Kind) (port : Port) (shape : List Byte → Option α)
    (owner : α → State → State × Reply) (body : List Byte) (s : State) (h : Admitted kind port s)
    (h' : shape body = none) :
    checkRequest kind port shape owner body s = answer port kind (.bare .invalid) s := by
  simp [checkRequest, h.1, h.2, h']

/-- A request that passes checks 3 to 5 of R169 is its owner's, and the reply is the owner's. -/
theorem checkRequest_taken {α : Type} (kind : Kind) (port : Port) (shape : List Byte → Option α)
    (owner : α → State → State × Reply) (body : List Byte) (s : State) (r : α) (h : Admitted kind port s)
    (h' : shape body = some r) :
    checkRequest kind port shape owner body s = answer port kind (owner r s).2 (owner r s).1 := by
  simp [checkRequest, h.1, h.2, h']

end Sys2Proof.Machine
end

