-- ==== Sys2Proof/Laws/Footprints.lean ====
section
/-!
SUPPORT. The footprint of each command: what it does to the fields that no consequence of an event reaches. `Evented s t`
says that t comes from s by consequences alone.
-/

namespace Sys2Proof.Machine

open Sys2Proof

/-- t comes from s by what leaving ACTIVE and the end of an event reach. -/
def Evented (s t : State) : Prop := t.withoutEvent = s.withoutEvent

theorem Evented.refl (s : State) : Evented s s := rfl
theorem Evented.trans {s t u : State} (h : Evented s t) (h' : Evented t u) : Evented s u := Eq.trans h' h
theorem Evented.symm {s t : State} (h : Evented s t) : Evented t s := Eq.symm h

theorem Evented.same {α : Type} (f : State → α) {s t : State} (h : Evented s t)
    (blind : ∀ u : State, f u.withoutEvent = f u) : f t = f s :=
  same_of_erased State.withoutEvent f blind h

theorem Fallen.evented {s t : State} (h : Fallen s t) : Evented s t := h.same State.withoutEvent fun _ => rfl
theorem Switched.evented {s t : State} (h : Switched s t) : Evented s t := h.same State.withoutEvent fun _ => rfl
theorem Limited.evented {s t : State} (h : Limited s t) : Evented s t := h.same State.withoutEvent fun _ => rfl
theorem Offered.evented {s t : State} (h : Offered s t) : Evented s t := h.same State.withoutEvent fun _ => rfl
theorem Logged.evented {s t : State} (h : Logged s t) : Evented s t := h.same State.withoutEvent fun _ => rfl
theorem Ended.evented {s t : State} (h : Ended s t) : Evented s t := h.same State.withoutEvent fun _ => rfl

theorem endEvent_evented {s t : State} (h : Evented s t) : Evented s (endEvent t) := h.trans (endEvent_ended t).evented

theorem Evented.inAnyOrder (todo : List (State → State)) (each : ∀ f ∈ todo, ∀ s, Evented s (f s)) (s : State) :
    Evented s (inAnyOrder todo s) :=
  inAnyOrder_same State.withoutEvent (fun _ _ => rfl) todo each s

/-! ## Sensing -/

theorem changeTemp_evented (c : TempId) (v next : TempChannel) (s : State) :
    Evented (setTempRecord c next s) (changeTemp c v next s) := by
  unfold changeTemp sourcesChanged
  dsimp only
  split
  · exact endEvent_evented (((occur_logged _ _ _ _).evented).trans (followAllSources_fallen _).evented)
  · split
    · exact endEvent_evented (((endCondition_logged _ _ _).evented).trans (followAllSources_fallen _).evented)
    · rfl

/-- The queue and the converter after a conversion has been started where one can be. -/
theorem startConversion_eq (s : State) :
    startConversion s =
      match s.converter, s.queue with
      | none, c :: rest =>
        { s with
          queue := rest
          converter := some
            { channel := c, kind := (s.temps.get c).cfg.kind, offset := (s.temps.get c).cfg.offset, voided := false
              timer := Timer.start (conversionTime (s.temps.get c).cfg.kind) } }
      | _, _ => s := rfl

theorem complianceDelivery_evented (d : DomainId) (q : Quality) (p : Nat) (s : State) :
    Evented s (complianceDelivery d q p s) := by
  unfold complianceDelivery judgeDelivery substituteCompliance
  dsimp only
  repeat' split
  all_goals first
    | exact Evented.trans (t := setCompliance d _ s) rfl (occur_logged _ _ _ _).evented
    | rfl

theorem reportPower_evented (n : PowerId) (o w : ChannelState) (s : State) : Evented s (reportPower n o w s) := by
  unfold reportPower
  split
  · exact (occur_logged _ _ _ _).evented
  · split <;> rfl

theorem deliverToDomain_evented (d : DomainId) (v : PowerChannel) (s : State) : Evented s (deliverToDomain d v s) := by
  unfold deliverToDomain
  split
  · rfl
  · exact endEvent_evented ((complianceDelivery_evented _ _ _ _).trans (accountDelivery_limited _ _ _ _).evented)

theorem restChange_evented (before : Nat) (s : State) : Evented s (restChange before s) := by
  unfold restChange
  split
  · rfl
  · exact endEvent_evented (recomputeShares_offered s).evented

/-- s without its supply trip watch. -/
def State.withoutWatch (s : State) : State := { s with watch := State.reset.watch }

theorem watchDelivery_watchOnly (p : Nat) (s : State) :
    (watchDelivery p s).withoutEvent.withoutWatch = s.withoutEvent.withoutWatch := by
  unfold watchDelivery
  dsimp only
  split
  · rfl
  · rfl
  · split <;> rfl

theorem watchFailure_watchOnly (s : State) : (watchFailure s).withoutEvent.withoutWatch = s.withoutEvent.withoutWatch := by
  unfold watchFailure
  split <;> rfl

theorem deliverToWatch_watchOnly (o : ChannelState) (v : PowerChannel) (s : State) :
    (deliverToWatch o v s).withoutEvent.withoutWatch = s.withoutEvent.withoutWatch := by
  unfold deliverToWatch
  split
  · exact (congrArg State.withoutWatch (endEvent_ended _).evented).trans (watchDelivery_watchOnly _ _)
  · exact (congrArg State.withoutWatch (endEvent_ended _).evented).trans (watchDelivery_watchOnly _ _)
  · split
    · rfl
    · exact watchFailure_watchOnly s
  · rfl
  · rfl

/-- A delivery reaches nothing beyond consequences and the watch. -/
theorem deliver_watchOnly (n : PowerId) (o v : PowerChannel) (s : State) :
    (deliver n o v s).withoutEvent.withoutWatch = s.withoutEvent.withoutWatch := by
  unfold deliver
  split
  · exact congrArg State.withoutWatch (deliverToDomain_evented _ _ _)
  · exact congrArg State.withoutWatch (deliverToDomain_evented _ _ _)
  · exact congrArg State.withoutWatch (deliverToDomain_evented _ _ _)
  · exact congrArg State.withoutWatch (restChange_evented _ _)
  · exact deliverToWatch_watchOnly _ _ _

/-! ## Posture -/

/-- s without candidate, dwell timer and committed posture. -/
def State.withoutDwell (s : State) : State := { s with candidate := none, dwell := none, committed := .unsettled }

theorem commit_dwellOnly (c : Place) (s : State) :
    (commit c s).withoutEvent.withoutDwell = s.withoutEvent.withoutDwell := by
  unfold commit
  dsimp only
  split
  · split <;> rfl
  · rfl

theorem setDwell_dwellOnly (c : Place) (s : State) :
    (setDwell c s).withoutEvent.withoutDwell = s.withoutEvent.withoutDwell := by
  unfold setDwell
  split
  · rfl
  · exact commit_dwellOnly c s
  · rfl

theorem reclassify_dwellOnly (s : State) : (reclassify s).withoutEvent.withoutDwell = s.withoutEvent.withoutDwell := by
  unfold reclassify
  dsimp only
  split
  · rfl
  · split
    · rfl
    · exact Eq.trans (setDwell_dwellOnly _ _) rfl

theorem classifierEvent_dwellOnly (l : InputId) (e : Bool) (s : State) :
    (classifierEvent l e s).withoutEvent.withoutDwell = s.withoutEvent.withoutDwell := by
  unfold classifierEvent
  refine (congrArg State.withoutDwell (deriveEffective_fallen _).evented).trans ((reclassify_dwellOnly _).trans ?_)
  split <;> rfl

/-- What a line's new debounced state leaves: the line's record, and posture and consequences. -/
theorem takeLevel_dwellOnly (l : InputId) (a : Bool) (s : State) :
    (takeLevel l a s).withoutEvent.withoutDwell
      = { s with
          inputs := s.inputs.set l
            { s.inputs.get l with
              state := LineState.ofLevel a, debouncing := none } }.withoutEvent.withoutDwell := by
  have pre : ∀ (c : Bool) (k : NoticeKind) (t : State),
      (if c = true then raise k t else t).withoutEvent.withoutDwell = t.withoutEvent.withoutDwell := by
    intro c k t
    split <;> rfl
  have fin : ∀ t : State, (endEvent t).withoutEvent.withoutDwell = t.withoutEvent.withoutDwell := fun t =>
    congrArg State.withoutDwell (endEvent_ended t).evented
  unfold takeLevel
  cases l
  · exact (fin _).trans ((classifierEvent_dwellOnly _ _ _).trans (pre _ _ _))
  · refine (fin _).trans (Eq.trans
      (inAnyOrder_same (fun u : State => u.withoutEvent.withoutDwell) (fun _ _ => rfl) _ ?_ _) (pre _ _ _))
    simp only [List.mem_cons, List.not_mem_nil, or_false]
    rintro f (rfl | rfl) t
    · exact classifierEvent_dwellOnly _ _ _
    · exact congrArg State.withoutDwell (recomputeShares_offered t).evented
  · exact (fin _).trans ((classifierEvent_dwellOnly _ _ _).trans (pre _ _ _))
  · exact (fin _).trans ((classifierEvent_dwellOnly _ _ _).trans (pre _ _ _))

/-! ## Owners -/

theorem storeEntry_evented (d : DomainId) (c : Column) (e : Entry) (s : State) :
    Evented { s with profile := s.profile.set d ((s.profile.get d).set c e) } (storeEntry d c e s) := by
  unfold storeEntry
  dsimp only
  split
  · exact endEvent_evented (reselectDomain_limited _ _).evented
  · rfl

theorem storeLimits_evented (z : ZoneId) (l : PerColumn Int) (s : State) :
    Evented { s with skin := s.skin.set z l } (storeLimits z l s) := by
  unfold storeLimits
  dsimp only
  split
  · rfl
  · exact endEvent_evented (reselectZone_switched _ _).evented

theorem leaveZone_evented (z : ZoneId) (v : Zone) (s : State) : Evented s (leaveZone z v s) := by
  unfold leaveZone
  dsimp only
  split <;> split <;> rfl

theorem configureZone_evented (z : ZoneId) (cfg : ZoneConfig) (s : State) : Evented s (configureZone z cfg s) := by
  have chain : ∀ v w, Evented s
      (endEvent (recomputeThermal (followSources z (leaveZone z v (setZoneRecord z w s))))) := by
    intro v w
    refine endEvent_evented (Evented.trans ?_ (recomputeThermal_limited _).evented)
    refine Evented.trans ?_ (followSources_fallen _ _).evented
    exact Evented.trans (setZoneRecord_switched _ _ _).evented (leaveZone_evented _ _ _)
  unfold configureZone
  dsimp only
  split
  · rfl
  · split
    · rfl
    · exact chain _ _
    · exact chain _ _

theorem configureLadder_evented (z : ZoneId) (steps : List LadderStep) (s : State) :
    Evented s (configureLadder z steps s) := by
  unfold configureLadder
  dsimp only
  split
  · rfl
  · split
    · refine endEvent_evented (Evented.trans ?_ (recomputeThermal_limited _).evented)
      rfl
    · refine endEvent_evented (Evented.trans ?_ (recomputeThermal_limited _).evented)
      rfl

theorem onlyIf_evented (c : Bool) (f : State → State) (s : State) (h : Evented s (f s)) : Evented s (onlyIf c f s) := by
  unfold onlyIf
  split
  · exact h
  · rfl

theorem configureDomain_evented (d : DomainId) (r : DomainRecord) (s : State) :
    Evented { s with domains := s.domains.set d r } (configureDomain d r s) := by
  unfold configureDomain
  dsimp only
  split
  · rename_i h
    subst h
    cases d <;> rfl
  · refine endEvent_evented (Evented.inAnyOrder _ ?_ _)
    simp only [List.mem_cons, List.not_mem_nil, or_false]
    rintro f (rfl | rfl | rfl | rfl) t
    · exact onlyIf_evented _ _ _ (accountRecover_limited _ _).evented
    · exact onlyIf_evented _ _ _ (recomputeShares_offered _).evented
    · exact onlyIf_evented _ _ _ (resolve_offered _ _).evented
    · exact onlyIf_evented _ _ _ rfl

theorem storeCap_evented (d : DomainId) (p : Port) (cap : Option Nat) (s : State) : Evented s (storeCap d p cap s) := by
  unfold storeCap
  dsimp only
  split
  · rfl
  · refine endEvent_evented (Evented.trans (t := { s with caps := _ }) rfl (Evented.inAnyOrder _ ?_ _))
    simp only [List.mem_cons, List.not_mem_nil, or_false]
    rintro f (rfl | rfl) t
    · exact (offerCapsToResolver_offered _ _).evented
    · exact (recomputeShares_offered _).evented

theorem placeHint_evented (h : Option Hint) (s : State) : Evented s (placeHint h s) := by
  unfold placeHint
  split
  · rfl
  · exact endEvent_evented (Evented.trans (t := { s with hint := h }) rfl (deriveEffective_fallen _).evented)

theorem configureSupply_evented (c : SupplyConfig) (s : State) :
    Evented { s with supplyCfg := c } (configureSupply c s) := by
  unfold configureSupply
  split
  · rename_i h
    subst h
    rfl
  · exact endEvent_evented (recomputeShares_offered _).evented

theorem configureLine_evented (l : LineId) (cfg : LineConfig) (s : State) : Evented s (configureLine l cfg s) := by
  unfold configureLine
  dsimp only
  split
  · rfl
  · exact Evented.trans (t := setLineRecord l _ s) rfl (endEventWith_ended _ _).evented

theorem lineSticks_evented (l : LineId) (s : State) : Evented s (lineSticks l s) :=
  endEvent_evented (Evented.trans (t := setLineRecord l _ s) rfl (occurFatal_fallen _ _ _ _).evented)

theorem supplyTrips_evented (s : State) :
    Evented { s with watch := { s.watch with state := .tripped } } (supplyTrips s) :=
  endEvent_evented (occurFatal_fallen _ _ _ _).evented

theorem becomeActive_evented (s : State) : Evented s (becomeActive s) :=
  endEvent_evented (Evented.trans (t := raise .mode { s with mode := .active }) rfl (deriveColumn_fallen _).evented)

theorem commitCandidate_dwellOnly (s : State) :
    (commitCandidate s).withoutEvent.withoutDwell = s.withoutEvent.withoutDwell := by
  unfold commitCandidate
  split
  · rfl
  · refine (congrArg State.withoutDwell (endEvent_ended _).evented).trans ?_
    refine (congrArg State.withoutDwell (deriveEffective_fallen _).evented).trans ?_
    exact commit_dwellOnly _ _

end Sys2Proof.Machine
end

