-- ==== Sys2Proof/Laws/Commands.lean ====
section
/-!
SUPPORT. What the 43 commands can do, said once: a property of states that every kind of change keeps is kept by every
command. Every command answers a next state, and none looks at the queue of waiting commands or changes it.
-/

namespace Sys2Proof.Machine

open Sys2Proof

/-- s without its temperature channel records. -/
def State.withoutTemps (s : State) : State := { s with temps := State.reset.temps }

/-- A property that each of the changes keeps out of which the commands are made: the passing of time, an event's
consequences, and each field that a command writes itself. -/
structure KeptByChanges (P : State → Prop) : Prop where
  /-- What leaving ACTIVE and the end of an event write, and the notices. -/
  event : ∀ s t, t.withoutEvent = s.withoutEvent → P s → P t
  /-- Such an event that also writes candidate, dwell timer and committed posture. -/
  dwell : ∀ s t, t.withoutEvent.withoutDwell = s.withoutEvent.withoutDwell → P s → P t
  /-- Such an event that also writes the supply trip watch. -/
  watch : ∀ s t, t.withoutEvent.withoutWatch = s.withoutEvent.withoutWatch → P s → P t
  links : ∀ s l, P s → P { s with links := l }
  time : ∀ n s, P s → P (elapse n s)
  temp : ∀ s c v, P s → P (setTempRecord c v s)
  power : ∀ s c v, P s → P (setPowerRecord c v s)
  /-- A channel that neither waits nor is being converted requests a conversion. -/
  request : ∀ s c, s.queue.contains c = false → converting c s = false → P s →
    P (startConversion { s with queue := s.queue ++ [c] })
  /-- A conversion ends with any outcome, and the converter takes the next head. -/
  conversionEnd : ∀ s t, t.withoutEvent.withoutTemps = { s with converter := none }.withoutEvent.withoutTemps → P s →
    P (startConversion t)
  voided : ∀ s c, P s → P (voidConversion c s)
  unqueued : ∀ s c, P s → P { s with queue := s.queue.filter fun q => q != c }
  restFail : ∀ s v, P s → P { s with restFail := v }
  inputs : ∀ s v, P s → P { s with inputs := v }
  timing : ∀ s v w, P s → P { s with enterDwell := v, relaxDwell := w }
  profile : ∀ s v, P s → P { s with profile := v }
  skin : ∀ s v, P s → P { s with skin := v }
  domains : ∀ s v, P s → P { s with domains := v }
  report : ∀ s v, P s → P { s with report := v }
  supplyCfg : ∀ s v, P s → P { s with supplyCfg := v }
  reset : ∀ s, P s → P { State.reset with inReset := true, schedule := s.schedule, pending := s.pending }
  resetEnds : ∀ a b c s, P s →
    P { State.reset with
      inputs := b, lines := c, adrsel := a, schedule := s.schedule, pending := s.pending }

/-- What every change keeps, every command keeps. -/
theorem exec_keeps {P : State → Prop} (k : KeptByChanges P) (i : Instr) (s t : State) (hp : P s)
    (h : exec i s = .next t) : P t := by
  have aw : ∀ t s, P s → P (await t s) := by
    intro t s h; unfold await; split
    · exact h
    · exact k.time _ _ h
  have EV : ∀ {s t}, Evented s t → P s → P t := fun h => k.event _ _ h
  have rq : ∀ {α} kind port shape (owner : α → State → State × Reply) body s, P s →
      (∀ r, P (owner r s).1) → P (takeRequest kind port shape owner body s) :=
    fun kind port shape owner body s hs h => takeRequest_keeps P k.links kind port shape owner body s hs (fun _ r _ _ => h r)
  have tl : ∀ l a s, P s → P (takeLevel l a s) := fun l a s h =>
    k.dwell _ _ (takeLevel_dwellOnly l a s) (k.inputs s _ h)
  have sd : ∀ l a s, P s → P (startDebounce l a s) := by
    intro l a s h; unfold startDebounce; dsimp only; split
    · exact tl _ _ _ h
    · exact k.inputs _ _ h
  have lc : ∀ l s, P s → P (levelChange l s) := by
    intro l s h; unfold levelChange; dsimp only; split
    · exact k.inputs _ _ h
    · exact sd _ _ _ h
  cases i <;> simp only [exec] at h
  case reset edge pins lines =>
    cases edge <;> cases h
    · exact k.reset _ hp
    · exact k.resetEnds _ _ _ _ hp
  case intervalTimerExpiry c =>
    refine outsideReset_keeps P _ s t hp ?_ h
    split
    · exact hp
    · dsimp only
      unfold requestConversion
      split
      · exact EV (occur_logged _ _ _ _).evented (k.temp _ _ _ (aw _ _ hp))
      · rename_i hc
        simp only [Bool.or_eq_true, not_or, Bool.not_eq_true] at hc
        exact k.request _ _ hc.1 hc.2 (k.temp _ _ _ (aw _ _ hp))
  case conversionEnd r =>
    refine outsideReset_keeps P _ s t hp ?_ h
    split
    · exact hp
    · rename_i j hj
      refine k.conversionEnd (await j.timer s) _ ?_ (aw _ _ hp)
      split
      · rfl
      · unfold handleOutcome; dsimp only; split
        · exact (congrArg State.withoutTemps (changeTemp_evented _ _ _ _)).trans rfl
        · exact (congrArg State.withoutTemps (changeTemp_evented _ _ _ _)).trans rfl
  case sampleArrival n x =>
    refine outsideReset_keeps P _ s t hp ?_ h
    exact k.watch _ _ (deliver_watchOnly _ _ _ _) (EV (reportPower_evented _ _ _ _) (k.power _ _ _ (aw _ _ hp)))
  case tripTimerExpiry =>
    refine outsideReset_keeps P _ s t hp ?_ h
    split
    · rename_i w _
      exact EV (supplyTrips_evented _) (k.watch (await w s) _ rfl (aw _ _ hp))
    all_goals exact hp
  case inputLevelChange l hi =>
    refine outsideReset_keeps P _ s t hp ?_ h
    dsimp only
    split
    · exact hp
    · exact lc _ _ (k.inputs _ _ hp)
  case debounceExpiry l =>
    refine outsideReset_keeps P _ s t hp ?_ h
    split
    · exact hp
    · exact tl _ _ _ (aw _ _ hp)
  case dwellExpiry =>
    refine outsideReset_keeps P _ s t hp ?_ h
    split
    · exact hp
    · rename_i w _
      exact k.dwell _ _ (commitCandidate_dwellOnly (await w s)) (aw _ _ hp)
  case zoneUpdate z =>
    refine outsideReset_keeps P _ s t hp ?_ h
    split
    · exact hp
    · rename_i w _
      dsimp only
      split
      · exact EV (s := await w s) rfl (aw _ _ hp)
      · refine EV (s := await w s) ?_ (aw _ _ hp)
        refine endEvent_evented (Evented.trans (t := setZoneRecord z _ _) rfl (updateZone_switched _ _ _).evented)
  case settleTimerExpiry d =>
    refine outsideReset_keeps P _ s t hp ?_ h
    dsimp only
    split
    · exact hp
    · rename_i w _
      exact EV (s := await w s) rfl (aw _ _ hp)
  case sensedLevelChange l hi =>
    refine outsideReset_keeps P _ s t hp ?_ h
    dsimp only
    split
    · exact hp
    · exact EV (s := s) (Evented.trans (t := setLineRecord l _ s) rfl (compareLine_ended _ _ _).evented) hp
  case readbackWindowExpiry l =>
    refine outsideReset_keeps P _ s t hp ?_ h
    split
    · exact hp
    · exact EV (lineSticks_evented _ _) (aw _ _ hp)
  case badFrame => exact atPort_keeps P _ _ s t hp (takeWrite_keeps P k.links _ _ _ _ hp fun _ _ => hp) h
  case unknown =>
    refine atPort_keeps P _ _ s t hp (takeWrite_keeps P k.links _ _ _ _ hp fun _ _ => ?_) h
    split
    · exact k.links _ _ hp
    · exact hp
  case replyRead => exact atPort_keeps P _ _ s t hp (k.links _ _ hp) h
  case identify =>
    refine atPort_keeps P _ _ s t hp ?_ h
    exact rq _ _ _ _ _ _ hp fun _ => hp
  case readStatus =>
    refine atPort_keeps P _ _ s t hp ?_ h
    exact rq _ _ _ _ _ _ hp fun _ => hp
  case readGrants =>
    refine atPort_keeps P _ _ s t hp ?_ h
    exact rq _ _ _ _ _ _ hp fun _ => hp
  case readDomain =>
    refine atPort_keeps P _ _ s t hp (rq _ _ _ _ _ _ hp fun _ => ?_) h
    unfold ownReadDomain; split
    · exact hp
    · split <;> exact hp
  case readZone => refine atPort_keeps P _ _ s t hp (rq _ _ _ _ _ _ hp fun _ => ?_) h; unfold ownReadZone; split <;> exact hp
  case readChannel =>
    refine atPort_keeps P _ _ s t hp (rq _ _ _ _ _ _ hp fun _ => ?_) h; unfold ownReadChannel; split <;> split <;> exact hp
  case readFaults =>
    refine atPort_keeps P _ _ s t hp ?_ h
    exact rq _ _ _ _ _ _ hp fun _ => hp
  case readNotices =>
    refine atPort_keeps P _ _ s t hp ?_ h
    exact rq _ _ _ _ _ _ hp fun _ => hp
  case clearNotices =>
    refine atPort_keeps P _ _ s t hp ?_ h
    exact rq _ _ _ _ _ _ hp fun _ => EV (s := s) rfl hp
  case setNoticeMask =>
    refine atPort_keeps P _ _ s t hp ?_ h
    exact rq _ _ _ _ _ _ hp fun _ => EV (s := s) rfl hp
  case clearFaults =>
    refine atPort_keeps P _ _ s t hp ?_ h
    exact rq _ _ _ _ _ _ hp fun _ => EV (s := s) rfl hp
  case setChannel =>
    refine atPort_keeps P _ _ s t hp (rq _ _ _ _ _ _ hp fun r => ?_) h
    unfold ownSetChannel; dsimp only
    split
    · exact hp
    · split
      · exact hp
      · split
        · exact hp
        · unfold configureChannel; dsimp only
          split
          · exact hp
          · split
            · exact k.temp _ _ _ hp
            · exact k.temp _ _ _ hp
            · exact EV (changeTemp_evented _ _ _ _) (k.temp _ _ _ (k.voided _ _ (k.unqueued s _ hp)))
            · exact EV (changeTemp_evented _ _ _ _) (k.temp _ _ _ (k.voided s _ hp))
  case setPowerChannel =>
    refine atPort_keeps P _ _ s t hp (rq _ _ _ _ _ _ hp fun r => ?_) h
    unfold ownSetPowerChannel
    split
    · exact hp
    · split
      · exact hp
      · unfold configurePower; dsimp only
        split
        · exact EV (restChange_evented _ _) (k.restFail _ _ (k.power _ _ _ hp))
        all_goals exact k.power _ _ _ hp
  case setInput =>
    refine atPort_keeps P _ _ s t hp (rq _ _ _ _ _ _ hp fun r => ?_) h
    unfold ownSetInput
    split
    · exact hp
    · unfold configureInput; dsimp only
      split
      · exact lc _ _ (k.inputs _ _ hp)
      · split
        · split
          · exact sd _ _ _ (k.inputs _ _ hp)
          · exact k.inputs _ _ hp
        · exact k.inputs _ _ hp
  case setPostureTiming =>
    refine atPort_keeps P _ _ s t hp ?_ h
    exact rq _ _ _ _ _ _ hp fun _ => k.timing _ _ _ hp
  case setZone =>
    refine atPort_keeps P _ _ s t hp (rq _ _ _ _ _ _ hp fun r => ?_) h
    unfold ownSetZone
    split
    · split
      · exact EV (configureZone_evented _ _ _) hp
      · exact hp
    · exact hp
  case setLadder =>
    refine atPort_keeps P _ _ s t hp (rq _ _ _ _ _ _ hp fun r => ?_) h
    unfold ownSetLadder
    split
    · exact hp
    · split
      · exact EV (configureLadder_evented _ _ _) hp
      · exact hp
  case setProfile =>
    refine atPort_keeps P _ _ s t hp (rq _ _ _ _ _ _ hp fun r => ?_) h
    unfold ownSetProfile
    split
    · split
      · exact EV (storeEntry_evented _ _ _ _) (k.profile _ _ hp)
      · exact hp
    · exact hp
  case setSkinLimits =>
    refine atPort_keeps P _ _ s t hp (rq _ _ _ _ _ _ hp fun r => ?_) h
    unfold ownSetSkinLimits
    split
    · exact hp
    · split
      · exact EV (storeLimits_evented _ _ _) (k.skin _ _ hp)
      · exact hp
  case setDomain =>
    refine atPort_keeps P _ _ s t hp (rq _ _ _ _ _ _ hp fun r => ?_) h
    unfold ownSetDomain
    split
    · exact hp
    · split
      · exact EV (configureDomain_evented _ _ _) (k.domains _ _ hp)
      · exact hp
  case setRouting =>
    refine atPort_keeps P _ _ s t hp (rq _ _ _ _ _ _ hp fun r => ?_) h
    unfold ownSetRouting
    split
    · exact hp
    · split
      · exact EV (configureLine_evented _ _ _) hp
      · exact hp
  case setSupplyConfig =>
    refine atPort_keeps P _ _ s t hp (rq _ _ _ _ _ _ hp fun r => ?_) h
    unfold ownSetSupplyConfig
    split
    · exact EV (configureSupply_evented _ _) (k.supplyCfg _ _ hp)
    · exact hp
  case supplyReport =>
    refine atPort_keeps P _ _ s t hp ?_ h
    exact rq _ _ _ _ _ _ hp fun r => EV (endEvent_evented (recomputeShares_offered _).evented) (k.report s _ hp)
  case setCap =>
    refine atPort_keeps P _ _ s t hp (rq _ _ _ _ _ _ hp fun r => ?_) h
    unfold ownSetCap
    split
    · exact hp
    · exact EV (storeCap_evented _ _ _ _) hp
  case postureHint =>
    refine atPort_keeps P _ _ s t hp (rq _ _ _ _ _ _ hp fun r => ?_) h
    unfold ownPostureHint
    split
    · exact hp
    · exact EV (placeHint_evented _ _) hp
    · exact EV (placeHint_evented _ _) hp
    · split
      · exact hp
      · split
        · exact hp
        · exact EV (placeHint_evented _ _) hp
    · split
      · exact hp
      · exact EV (placeHint_evented _ _) hp
  case forceLine =>
    refine atPort_keeps P _ _ s t hp (rq _ _ _ _ _ _ hp fun r => ?_) h
    unfold ownForceLine
    split
    · exact hp
    · dsimp only
      split
      · exact hp
      · exact EV (s := s) (endEvent_evented rfl) hp
  case activate =>
    refine atPort_keeps P _ _ s t hp (rq _ _ _ _ _ _ hp fun r => ?_) h
    unfold ownActivate
    split
    · exact hp
    · split
      · exact hp
      · split
        · exact hp
        · split
          · exact hp
          · exact EV (becomeActive_evented _) hp
  case deactivate =>
    refine atPort_keeps P _ _ s t hp (rq _ _ _ _ _ _ hp fun r => ?_) h
    unfold ownDeactivate
    split
    · exact EV (endEvent_evented (leaveActive_fallen _).evented) hp
    · exact hp

/-- A conversion that begins changes no field but the queue and the converter. -/
theorem startConversion_same {α : Type} (f : State → α)
    (blind : ∀ s q c, f { s with queue := q, converter := c } = f s) (s : State) : f (startConversion s) = f s := by
  rw [startConversion_eq]
  split
  · exact blind _ _ _
  · rfl

/-- No command changes the queue of waiting commands. -/
theorem exec_pending (i : Instr) (s t : State) (h : exec i s = .next t) : t.pending = s.pending := by
  have started := startConversion_same State.pending fun _ _ _ => rfl
  exact exec_keeps (P := fun t => t.pending = s.pending)
    { event := fun a b h h' => (same_of_erased State.withoutEvent State.pending (fun _ => rfl) h).trans h'
      dwell := fun a b h h' =>
        (same_of_erased (fun u => u.withoutEvent.withoutDwell) State.pending (fun _ => rfl) h).trans h'
      watch := fun a b h h' =>
        (same_of_erased (fun u => u.withoutEvent.withoutWatch) State.pending (fun _ => rfl) h).trans h'
      request := fun _ _ _ _ h => (started _).trans h
      conversionEnd := fun s c h h' =>
        (started _).trans
          ((same_of_erased (fun u => u.withoutEvent.withoutTemps) State.pending (fun _ => rfl) h).trans h')
      links := fun _ _ h => h
      time := fun _ _ h => h
      temp := fun _ _ _ h => h
      power := fun _ _ _ h => h
      voided := fun _ _ h => h
      unqueued := fun _ _ h => h
      restFail := fun _ _ h => h
      inputs := fun _ _ h => h
      timing := fun _ _ _ h => h
      profile := fun _ _ h => h
      skin := fun _ _ h => h
      domains := fun _ _ h => h
      report := fun _ _ h => h
      supplyCfg := fun _ _ h => h
      reset := fun _ h => h
      resetEnds := fun _ _ _ _ h => h } i s t rfl h

/-- Every command answers a next state: none faults and none is refused (log 23). -/
theorem exec_next (i : Instr) (s : State) : ∃ t, exec i s = .next t := by
  cases i with
  | reset edge _ _ => cases edge <;> exact ⟨_, rfl⟩
  | _ => exact ⟨_, rfl⟩

end Sys2Proof.Machine
end

