-- ==== Sys2Proof/Laws/Operations.lean ====
section
/-!
SUPPORT. What the shared operations answer, said once per operation, to be cited instead of unfolding them.
-/

namespace Sys2Proof.Machine

open Sys2Proof

/-! ## Time and clamping -/

/-- A timer that is due is not waited for. -/
theorem await_of_due (w : Timer) (s : State) (h : w.due = true) : await w s = s := by simp [await, h]

/-- The rest of a timer that is not due passes first (log 3). -/
theorem await_of_not_due (w : Timer) (s : State) (h : w.due = false) : await w s = elapse w.remaining s := by
  simp [await, h]

theorem clampNat_eq (lo hi x : Nat) (h : lo ≤ hi) : clampNat lo hi x = max lo (min hi x) := by
  unfold clampNat
  split
  · omega
  · split <;> omega

theorem clampInt_eq (lo hi x : Int) (h : lo ≤ hi) : clampInt lo hi x = max lo (min hi x) := by
  unfold clampInt
  split
  · omega
  · split <;> omega

/-! ## Fault log -/

theorem isOf_iff (r : FaultRecord) (kind : FaultKind) (n : Nat) :
    r.isOf kind n = true ↔ r.kind = kind ∧ r.subject = n := by
  simp [FaultRecord.isOf]

theorem logHolds_iff (log : List FaultRecord) (kind : FaultKind) (n : Nat) :
    logHolds log kind n = true ↔ ∃ r ∈ log, r.kind = kind ∧ r.subject = n := by
  simp [logHolds, FaultRecord.isOf]

/-- A first occurrence appends its record, recomputes the summary and raises FAULT. -/
theorem occur_first (kind : FaultKind) (n : Nat) (v : Option Int) (s : State) (h : logHolds s.faults kind n = false) :
    occur kind n v s =
      raise .fault
        { s with
          faults := s.faults ++ [newRecord kind n v s.uptime]
          severity := summaryOf (s.faults ++ [newRecord kind n v s.uptime]) } := by
  simp [occur, h]

/-- A recurrence changes the record of its pair in place. -/
theorem occur_again (kind : FaultKind) (n : Nat) (v : Option Int) (s : State) (h : logHolds s.faults kind n = true) :
    occur kind n v s =
      { s with faults := s.faults.map fun r => if r.isOf kind n then r.recur s.uptime else r } := by
  simp [occur, h]

/-- In SAFE a FATAL occurrence is an occurrence only. -/
theorem occurFatal_safe (kind : FaultKind) (n : Nat) (v : Option Int) (s : State) (h : s.mode = .safe) :
    occurFatal kind n v s = occur kind n v s := by
  have e : (occur kind n v s).mode = .safe := ((occur_logged kind n v s).same State.mode fun _ => rfl).trans h
  simp [occurFatal, e]

/-- In ACTIVE a FATAL occurrence leaves ACTIVE in the same event. -/
theorem occurFatal_active (kind : FaultKind) (n : Nat) (v : Option Int) (s : State) (h : s.mode = .active) :
    occurFatal kind n v s = leaveActive (occur kind n v s) := by
  have e : (occur kind n v s).mode = .active := ((occur_logged kind n v s).same State.mode fun _ => rfl).trans h
  simp [occurFatal, e]

/-! ## Sensing -/

/-- A request of a channel that waits or is being converted is an overrun. -/
theorem requestConversion_overrun (c : TempId) (s : State) (h : (s.queue.contains c || converting c s) = true) :
    requestConversion c s = occur .convOverrun c.number none s := by
  simp only [requestConversion, h, if_true]

/-- Any other request joins the tail, and begins where the converter is idle. -/
theorem requestConversion_joins (c : TempId) (s : State) (h : (s.queue.contains c || converting c s) = false) :
    requestConversion c s = startConversion { s with queue := s.queue ++ [c] } := by
  simp only [requestConversion, h, Bool.false_eq_true, if_false]

/-- With the converter idle, the conversion that begins is the head's. -/
theorem startConversion_takesHead (s : State) (h : s.converter = none) : TakesHead s (startConversion s) := by
  rw [startConversion_eq]
  split
  · rename_i c rest _ hq
    refine ⟨fun e => ?_, fun c' rest' e => ?_⟩
    · rw [hq] at e
      cases e
    · rw [hq] at e
      cases e
      exact ⟨rfl, rfl⟩
  · rename_i hn
    exact ⟨fun e => ⟨e, h⟩, fun c rest e => absurd e (hn c rest h)⟩

/-- With the converter busy, none begins. -/
theorem startConversion_busy (s : State) (j : Conversion) (h : s.converter = some j) : startConversion s = s := by
  unfold startConversion
  rw [h]

@[simp] theorem changeTemp_temps (c : TempId) (v next : TempChannel) (s : State) :
    (changeTemp c v next s).temps = s.temps.set c next :=
  (changeTemp_evented c v next s).same State.temps fun _ => rfl

@[simp] theorem changeTemp_queue (c : TempId) (v next : TempChannel) (s : State) :
    (changeTemp c v next s).queue = s.queue :=
  (changeTemp_evented c v next s).same State.queue fun _ => rfl

@[simp] theorem changeTemp_converter (c : TempId) (v next : TempChannel) (s : State) :
    (changeTemp c v next s).converter = s.converter :=
  (changeTemp_evented c v next s).same State.converter fun _ => rfl

/-- A change that neither enters nor leaves FAILED reaches the record only. -/
theorem changeTemp_quiet (c : TempId) (v next : TempChannel) (s : State) (h : v.state = .failed ↔ next.state = .failed) :
    changeTemp c v next s = setTempRecord c next s := by
  unfold changeTemp
  rw [if_neg fun e => e.1 (h.mpr e.2), if_neg fun e => e.2 (h.mp e.1)]

/-! ## Resolver and arbiter -/

/-- A resolution that finds what the record holds does nothing. -/
theorem resolve_same (d : DomainId) (s : State)
    (h : (s.grants.get d).agrees (resolution (s.contributors.get d) (s.domains.get d).lmin) = true) : resolve d s = s := by
  simp only [resolve, h, if_true]

/-- The settle window writes the compliance of its domain only. -/
theorem startSettle_same {α : Type} (f : State → α) (blind : ∀ s c, f { s with compliance := c } = f s) (d : DomainId)
    (s : State) : f (startSettle d s) = f s := by
  unfold startSettle
  dsimp only
  split
  · rfl
  · exact blind _ _

/-- A resolution that finds something else changes the domain's record, and raises GRANT. -/
theorem resolve_grants (d : DomainId) (s : State)
    (h : (s.grants.get d).agrees (resolution (s.contributors.get d) (s.domains.get d).lmin) = false) :
    (resolve d s).grants
      = s.grants.set d
          ((s.grants.get d).changed (resolution (s.contributors.get d) (s.domains.get d).lmin) s.uptime) := by
  unfold resolve
  simp only [h, Bool.false_eq_true, if_false]
  split
  · exact startSettle_same State.grants (fun _ _ => rfl) d _
  · rfl

/-- After a resolution the domain's record holds what the contributors give. -/
theorem resolve_agrees (d : DomainId) (s : State) :
    ((resolve d s).grants.get d).agrees (resolution (s.contributors.get d) (s.domains.get d).lmin) = true := by
  cases h : (s.grants.get d).agrees (resolution (s.contributors.get d) (s.domains.get d).lmin) with
  | true => rw [resolve_same d s h, h]
  | false => simp [resolve_grants d s h, Grant.agrees, Grant.changed]

/-- A resolution leaves the other records. -/
theorem resolve_others (d d' : DomainId) (s : State) (h : d' ≠ d) :
    (resolve d s).grants.get d' = s.grants.get d' := by
  cases e : (s.grants.get d).agrees (resolution (s.contributors.get d) (s.domains.get d).lmin) with
  | true => rw [resolve_same d s e]
  | false => rw [resolve_grants d s e, PerDomain.get_set_of_ne _ _ _ _ h]

/-- One delivery at the trip watch: the power is kept, and the state follows the table of R105. -/
theorem watchDelivery_watch (p : Nat) (s : State) :
    (watchDelivery p s).watch =
      { state := match s.watch.state with
          | .clear =>
            if tripThreshold s.supply.available s.supplyCfg.tripPercent < p then
              .timing (Timer.start s.supplyCfg.tripTime)
            else .clear
          | .timing w => if tripThreshold s.supply.available s.supplyCfg.tripPercent < p then .timing w else .clear
          | .tripped => if p ≤ s.supply.available then .clear else .tripped
        lastSys := p } := by
  unfold watchDelivery
  cases s.watch.state with
  | clear => rfl
  | timing w => rfl
  | tripped => dsimp only; split <;> rfl

/-! ## Zones, column and posture -/

/-- What `topFrom` finds, counted on from k: no later step is entered, and it is 0 or an entered step. -/
theorem topFrom_spec (limit estimate : Int) (ladder : List LadderStep) (k : Nat) :
    (∀ i step, ladder[i]? = some step → limit - step.offset ≤ estimate → 0 < k → k + i ≤ topFrom limit estimate k ladder) ∧
      (topFrom limit estimate k ladder = 0 ∨
        ∃ i step, topFrom limit estimate k ladder = k + i ∧ ladder[i]? = some step ∧ limit - step.offset ≤ estimate) := by
  induction ladder generalizing k with
  | nil => exact ⟨fun i step h => by simp at h, .inl rfl⟩
  | cons first rest ih =>
    obtain ⟨above, found⟩ := ih (k + 1)
    have unfolded : topFrom limit estimate k (first :: rest)
        = if topFrom limit estimate (k + 1) rest ≠ 0 then topFrom limit estimate (k + 1) rest
          else if limit - first.offset ≤ estimate then k else 0 := rfl
    rw [unfolded]
    refine ⟨fun i step h entered hk => ?_, ?_⟩
    · cases i with
      | zero =>
        cases h
        split
        · rcases found with e | ⟨i, _, e, _⟩ <;> omega
        · simp
      | succ i =>
        have := above i step h entered (by omega)
        rw [if_pos (by omega)]
        omega
    · split
      · rename_i nonzero
        rcases found with e | ⟨i, step, e, h, entered⟩
        · exact absurd e nonzero
        · exact .inr ⟨i + 1, step, by omega, h, entered⟩
      · split
        · rename_i entered
          exact .inr ⟨0, first, rfl, rfl, entered⟩
        · exact .inl rfl

/-- `ladderTop` is the highest step entered, 0 for none (R64). -/
theorem ladderTop_isTop (limit estimate : Int) (ladder : List LadderStep) :
    IsTop ladder limit estimate (ladderTop limit estimate ladder) := by
  obtain ⟨above, found⟩ := topFrom_spec limit estimate ladder 1
  refine ⟨fun k step h entered => ?_, ?_⟩
  · have := above k step h entered (by decide)
    simp only [ladderTop]
    omega
  · rcases found with e | ⟨i, step, e, h, entered⟩
    · exact .inl e
    · refine .inr ⟨step, ?_, entered⟩
      simp only [ladderTop, e]
      simpa using h

/-- Each thermal percent is the least of its zones' once all have been recomputed (R68). -/
theorem recomputeThermal_thermal (s : State) (d : DomainId) :
    (recomputeThermal s).thermal.get d = thermalPercent s.zones d := by
  have zones : ∀ d s, (recomputeThermalOf d s).zones = s.zones := fun d s =>
    (recomputeThermalOf_limited d s).same State.zones fun _ => rfl
  have offered : ∀ d s, (offerThermal d s).thermal = s.thermal := by
    intro d s
    refine inAnyOrder_same State.thermal (fun _ _ => rfl) _ ?_ s
    intro f hf s
    simp only [List.mem_cons, List.not_mem_nil, or_false] at hf
    rcases hf with rfl | rfl
    · exact settleAccount_thermal _ _ _
    · exact (offerPercentToResolver_offered _ _).same State.thermal fun _ => rfl
  have each : ∀ d s d', (recomputeThermalOf d s).thermal.get d'
      = if d' = d then thermalPercent s.zones d else s.thermal.get d' := by
    intro d s d'
    unfold recomputeThermalOf
    dsimp only
    split
    · rename_i h
      split
      · rename_i e
        rw [e, h]
      · rfl
    · rw [offered, PerDomain.get_set]
  have todo : ∀ f ∈ [recomputeThermalOf .d0, recomputeThermalOf .d1, recomputeThermalOf .d2],
      ∃ d, f = recomputeThermalOf d := by
    intro f hf
    simp only [List.mem_cons, List.not_mem_nil, or_false] at hf
    rcases hf with rfl | rfl | rfl <;> exact ⟨_, rfl⟩
  refine inAnyOrder_brings (fun t => t.thermal.get d = thermalPercent s.zones d) (fun t => t.zones = s.zones)
    (fun _ _ h => h) (fun _ _ h => h) _ (recomputeThermalOf d) ?_ ?_ ?_ ?_ s rfl
  · cases d <;> simp
  · intro t h
    rw [each, if_pos rfl, h]
  · intro f hf t h
    obtain ⟨d', rfl⟩ := todo f hf
    exact (zones d' t).trans h
  · intro f hf t h h'
    obtain ⟨d', rfl⟩ := todo f hf
    rw [each]
    split
    · rename_i e
      rw [e, h]
    · exact h'

/-- After a derivation the column in use is the one that mode and effective posture name (R40). -/
@[simp] theorem deriveColumn_column (s : State) : (deriveColumn s).column = columnOf s.mode s.effective := by
  unfold deriveColumn
  dsimp only
  split
  · rename_i h
    exact h.symm
  · exact (announceSwitch_switched _).same State.column fun _ => rfl

@[simp] theorem deriveColumn_mode (s : State) : (deriveColumn s).mode = s.mode := by
  unfold deriveColumn
  dsimp only
  split
  · rfl
  · exact (announceSwitch_switched _).same State.mode fun _ => rfl

@[simp] theorem deriveColumn_effective (s : State) : (deriveColumn s).effective = s.effective := by
  unfold deriveColumn
  dsimp only
  split
  · rfl
  · exact (announceSwitch_switched _).same State.effective fun _ => rfl

@[simp] theorem deriveColumn_hint (s : State) : (deriveColumn s).hint = s.hint := by
  unfold deriveColumn
  dsimp only
  split
  · rfl
  · exact (announceSwitch_switched _).same State.hint fun _ => rfl

/-- After a derivation the effective posture is the hint or the committed posture (R32). -/
@[simp] theorem deriveEffective_effective (s : State) :
    (deriveEffective s).effective = effectiveOf s.hint s.committed := by
  unfold deriveEffective
  dsimp only
  split
  · rename_i h
    exact h.symm
  · rw [deriveColumn_effective, raise_effective]

@[simp] theorem deriveEffective_mode (s : State) : (deriveEffective s).mode = s.mode := by
  unfold deriveEffective
  dsimp only
  split
  · rfl
  · rw [deriveColumn_mode, raise_mode]

@[simp] theorem deriveEffective_hint (s : State) : (deriveEffective s).hint = s.hint := by
  unfold deriveEffective
  dsimp only
  split
  · rfl
  · rw [deriveColumn_hint, raise_hint]

/-! ## Throttle lines -/

/-- A comparison leaves the other lines' records. -/
theorem compareLine_others (l l' : LineId) (e : Comparison) (s : State) (h : l' ≠ l) :
    (compareLine l e s).lines.get l' = s.lines.get l' := by
  unfold compareLine
  dsimp only
  repeat' split
  all_goals simp [h]

/-- A derivation leaves the other lines' records. -/
theorem deriveLine_others (fresh : Bool) (l l' : LineId) (s : State) (h : l' ≠ l) :
    (deriveLine fresh l s).lines.get l' = s.lines.get l' := by
  unfold deriveLine
  dsimp only
  split
  · rw [compareLine_others _ _ _ _ h]
    simp [h]
  · simp [h]

/-- A comparison looks at its own line's record only. -/
theorem compareLine_congr (l : LineId) (e : Comparison) (s t : State) (h : t.lines.get l = s.lines.get l) :
    (compareLine l e t).lines.get l = (compareLine l e s).lines.get l := by
  unfold compareLine
  dsimp only
  rw [h]
  repeat' split
  all_goals simp

/-- A derivation looks at its own line's record and the sources only. -/
theorem deriveLine_congr (fresh : Bool) (l : LineId) (s t : State) (h : t.lines.get l = s.lines.get l)
    (sources : ∀ routing, viewOf t routing = viewOf s routing) :
    (deriveLine fresh l t).lines.get l = (deriveLine fresh l s).lines.get l := by
  unfold deriveLine
  dsimp only
  rw [h, sources]
  split
  · exact compareLine_congr _ _ _ _ (by simp)
  · simp

/-- The end of an event leaves each line as its own derivation from the sources leaves it. -/
theorem endEventWith_line (fresh : Option LineId) (l : LineId) (s : State) :
    (endEventWith fresh s).lines.get l = (deriveLine (fresh == some l) l s).lines.get l := by
  have sources : ∀ b l s routing, viewOf (deriveLine b l s) routing = viewOf s routing := fun b l s routing =>
    (deriveLine_ended b l s).same (fun u => viewOf u routing) fun _ => rfl
  have e : (endEventWith fresh s).lines
      = (deriveLine (fresh == some .thr3) .thr3 (deriveLine (fresh == some .thr2) .thr2
          (deriveLine (fresh == some .thr1) .thr1 (deriveLine (fresh == some .thr0) .thr0 s)))).lines := by
    unfold endEventWith
    dsimp only
    split <;> rfl
  rw [e]
  cases l
  · rw [deriveLine_others _ _ _ _ (by decide), deriveLine_others _ _ _ _ (by decide),
      deriveLine_others _ _ _ _ (by decide)]
  · rw [deriveLine_others _ _ _ _ (by decide), deriveLine_others _ _ _ _ (by decide)]
    exact deriveLine_congr _ _ _ _ (deriveLine_others _ _ _ _ (by decide)) (fun _ => by rw [sources])
  · rw [deriveLine_others _ _ _ _ (by decide)]
    exact deriveLine_congr _ _ _ _
      (by rw [deriveLine_others _ _ _ _ (by decide), deriveLine_others _ _ _ _ (by decide)])
      (fun _ => by rw [sources, sources])
  · exact deriveLine_congr _ _ _ _
      (by rw [deriveLine_others _ _ _ _ (by decide), deriveLine_others _ _ _ _ (by decide),
        deriveLine_others _ _ _ _ (by decide)])
      (fun _ => by rw [sources, sources, sources])

end Sys2Proof.Machine
end

