-- ==== Sys2Proof/Tests/Slice0.lean ====
section
/-!
SUPPORT. The checks of WellFormed, frames written out byte by byte, and single commands on small states. Every expected
value is the manual's: a comment names the worked example, the table or the rule it is taken from. The witnesses at the end
show states and operands that meet the hypotheses of the statements, clause by clause.
-/

namespace Sys2Proof.Tests

open Sys2Proof Sys2Proof.Machine

/-! ## States -/

/-- The state after reset, with the model's free value at 0. -/
def idle : State := { State.reset with schedule := 0 }

/-- Calls of the ports' own addresses, ADRSEL low (section 11.1). -/
def onP : Call := ⟨.platform, 0x3A⟩
def onS : Call := ⟨.system, 0x4C⟩

/-- What a command leaves. -/
def after (c : Instr) (s : State) : State :=
  match exec c s with
  | .next t => t
  | .fault _ => s
  | .refused _ => s

/-- The reply that waits on a port. -/
def reply (p : Port) (s : State) : List Byte := ((s.links.get p).slot).getD []

/-- A timer at its end. -/
def ended : Timer := ⟨10, 10⟩

/-- ACTIVE, a report taken. -/
def active : State :=
  { idle with mode := .active, report := { rating := 0, derate := 100, battery := some 60000, received := true } }

/-- ACTIVE with one posture committed and effective. -/
def at_ (p : Posture) (c : Column) : State := { active with committed := p, effective := p, column := c }

/-- A temperature channel in the worked examples of chapter 1. -/
def fast (state : ChannelState) : TempChannel :=
  { resetTemp true with
    cfg := { enabled := true, kind := .diode, interval := 10, offset := -5, holdCount := 2, failValue := 1050 }
    state := state, value := some 475, badRun := 2, firstBad := some .openPair, lastGood := some 0, timer := some ended }

/-- A conversion of a channel at its end. -/
def converted (c : TempId) : Conversion := { channel := c, kind := .diode, offset := -5, voided := false, timer := ended }

/-- T3 being converted with T0 to T2 waiting, as at 20 ms of the example of section 1.3. -/
def crowded : State :=
  { idle with
    temps := ((idle.temps.set .t3 (fast .valid)).set .t2 (fast .holding)).set .t0 (fast .valid)
    queue := [.t0, .t1, .t2], converter := some (converted .t3) }

/-- Z2 in the example of section 4.7: T2 weight 160, T5 weight 96, column LAP. -/
def skinned (state : ZoneState) (estimate : Int) (position held percent : Nat) : State :=
  { at_ .lap .lap with
    temps := (idle.temps.set .t2 { fast .valid with value := some 473 }).set .t5 { fast .valid with value := some 398 }
    skin := idle.skin.set .z2 ⟨430, 410, 480, 460, 420⟩
    zones := idle.zones.set .z2
      { cfg :=
          { enabled := true, sources := [⟨.t2, 160⟩, ⟨.t5, 96⟩], influence := ⟨false, true, false⟩
            alpha := 32, interval := 1000, hysteresis := 10, descentDwell := 3, tripMargin := 30 }
        ladder := [⟨40, 90⟩, ⟨25, 75⟩, ⟨10, 60⟩, ⟨0, 40⟩]
        state := state, estimate := some estimate, position := position, held := held, percent := percent
        degraded := false, blind := false, timer := some ended } }

/-- The line states of the example of chapter 2 at a moment: LID, ACIN, MOTION, CONTACT. -/
def lined (lid acin motion contact : Bool) (s : State) : State :=
  let line := fun (l : InputLine) b => { l with pinHigh := b, state := LineState.ofLevel b, debouncing := none }
  { s with
    inputs := ⟨line s.inputs.lid lid, line s.inputs.acin acin, line s.inputs.motion motion,
      line s.inputs.contact contact⟩ }

/-- A line whose debounce timer ends with a level. -/
def debounced (l : InputId) (level : Bool) (s : State) : State :=
  { s with inputs := s.inputs.set l { s.inputs.get l with debouncing := some ⟨ended, level⟩ } }

/-- The shortfall of section 6.9 at step 0. -/
def shortfall : State :=
  let s : State :=
    { lined false true false true (at_ .lap .lap) with
      report := { rating := 65000, derate := 90, battery := some 25000, received := true }
      powers := idle.powers.set .pm3 { resetPower with state := .valid, value := some 9000, timer := ended }
      accounts :=
        ⟨{ resetAccount 18000 with b := 35000, w := 20000, bEff := 35000, state := .burst, allowance := 35000 },
          { resetAccount 20000 with b := 30000, w := 10000, bEff := 30000, state := .burst, allowance := 30000 },
          resetAccount 30000⟩
      caps := ⟨⟨none, none⟩, ⟨some 25000, none⟩, ⟨none, none⟩⟩ }
  { s with supply := allocationOf s }

/-- A fault record of a kind and subject, present or not. -/
def record (kind : FaultKind) (subject : Nat) (present : Option Bool) : FaultRecord :=
  { kind := kind, subject := subject, severity := kind.severity, present := present, count := 1, firstTime := 0
    lastTime := 0, firstValue := none }

/-- The log of section 9.10 at 15,000 ms. -/
def blinded : State :=
  { idle with
    faults :=
      [record .convOverrun 3 none, record .tchFailed 5 (some true), record .zoneTrip 2 (some true),
        record .tchFailed 2 (some true), record .zoneBlind 2 (some true)]
    severity := .fatal }

/-- The notice sets of the example of section 10.3 after its first event: BURST and GRANT pending on both ports. -/
def noticed : State := { idle with notices := ⟨⟨0x101, 0x1F1E, true⟩, ⟨0x101, 0x1FFC, true⟩⟩ }

/-- Z2 in the example of section 4.13, where each estimate is the raw value. -/
def direct (state : ZoneState) (estimate : Int) (position held percent : Nat) : State :=
  let s := skinned state estimate position held percent
  let z := s.zones.get .z2
  { s with zones := s.zones.set .z2 { z with cfg := { z.cfg with alpha := 256 } } }

/-- A power channel at the end of its interval. -/
def sampled (n : PowerId) (v : PowerChannel) (s : State) : State :=
  { s with powers := s.powers.set n { v with timer := ended } }

/-! ## Which commands the outside can make -/

theorem test_wellFormed_refuses_a_good_frame_as_bad :
    (Instr.badFrame onS [0x31, 0x05, 0x00, 0x20, 0x4E, 0x00, 0x00, 0x5C]).wellFormed = false := by decide
theorem test_wellFormed_refuses_a_known_kind_as_unknown :
    (Instr.unknown onP 0x31 []).wellFormed = false := by decide
theorem test_wellFormed_refuses_a_long_unknown_body :
    (Instr.unknown onP 0x50 (List.replicate 61 0)).wellFormed = false := by decide
theorem test_wellFormed_refuses_a_long_request_body :
    (Instr.setCap onP (List.replicate 61 0)).wellFormed = false := by decide
theorem test_wellFormed_admits :
    (Instr.badFrame onS []).wellFormed = true ∧ (Instr.unknown onP 0x50 []).wellFormed = true ∧
      (Instr.setCap onP (List.replicate 60 0)).wellFormed = true ∧ Instr.dwellExpiry.wellFormed = true := by decide

/-! ## Frames written out from sections 11.2 and 11.6 -/

/-- The example of section 11.2: the kind byte 0x31, five body bytes, and the check 0x5C. -/
theorem test_decode_set_cap :
    decodeWrite onS [0x31, 0x05, 0x00, 0x20, 0x4E, 0x00, 0x00, 0x5C] =
      .setCap onS [0x00, 0x20, 0x4E, 0x00, 0x00] := by decide
theorem test_decode_bare_requests :
    decodeWrite onP [0x01, 0x00, 0xFF] = .identify onP [] ∧
      decodeWrite onP [0x02, 0x00, 0xFE] = .readStatus onP [] ∧
      decodeWrite onP [0x03, 0x00, 0xFD] = .readGrants onP [] ∧
      decodeWrite onS [0x08, 0x00, 0xF8] = .readNotices onS [] ∧
      decodeWrite onP [0x12, 0x00, 0xEE] = .clearFaults onP [] ∧
      decodeWrite onP [0x40, 0x00, 0xC0] = .activate onP [] ∧
      decodeWrite onP [0x41, 0x00, 0xBF] = .deactivate onP [] := by decide
theorem test_decode_short_requests :
    decodeWrite onP [0x04, 0x01, 0x02, 0xF9] = .readDomain onP [2] ∧
      decodeWrite onP [0x05, 0x01, 0x03, 0xF7] = .readZone onP [3] ∧
      decodeWrite onP [0x06, 0x02, 0x00, 0x07, 0xF1] = .readChannel onP [0, 7] ∧
      decodeWrite onP [0x07, 0x01, 0x04, 0xF4] = .readFaults onP [4] ∧
      decodeWrite onP [0x10, 0x02, 0xFF, 0x1F, 0xD0] = .clearNotices onP [0xFF, 0x1F] ∧
      decodeWrite onP [0x11, 0x02, 0x01, 0x00, 0xEC] = .setNoticeMask onP [1, 0] ∧
      decodeWrite onS [0x32, 0x01, 0xFF, 0xCE] = .postureHint onS [0xFF] ∧
      decodeWrite onP [0x33, 0x02, 0x01, 0x01, 0xC9] = .forceLine onP [1, 1] := by decide
theorem test_decode_sensing_and_posture_requests :
    decodeWrite onP [0x20, 0x0A, 0, 1, 0, 100, 0, 0xFB, 0xFF, 2, 0x1A, 4, 0x57] =
        .setChannel onP [0, 1, 0, 100, 0, 0xFB, 0xFF, 2, 0x1A, 4] ∧
      decodeWrite onP [0x21, 0x07, 3, 4, 3, 0x20, 0x4E, 0, 0, 0x60] =
        .setPowerChannel onP [3, 4, 3, 0x20, 0x4E, 0, 0] ∧
      decodeWrite onP [0x22, 0x05, 0, 1, 50, 0, 3, 0xA3] = .setInput onP [0, 1, 50, 0, 3] ∧
      decodeWrite onP [0x23, 0x06, 0xDC, 0x05, 0x20, 0x4E, 0, 0, 0x88] =
        .setPostureTiming onP [0xDC, 0x05, 0x20, 0x4E, 0, 0] := by decide
theorem test_decode_zone_and_profile_requests :
    decodeWrite onP
        [0x24, 0x14, 2, 1, 2, 2, 160, 0, 5, 96, 0, 0, 0, 0, 2, 32, 0, 0xE8, 3, 10, 3, 30, 0x84] =
        .setZone onP [2, 1, 2, 2, 160, 0, 5, 96, 0, 0, 0, 0, 2, 32, 0, 0xE8, 3, 10, 3, 30] ∧
      decodeWrite onP [0x25, 0x05, 0, 1, 30, 0, 85, 0x62] = .setLadder onP [0, 1, 30, 0, 85] ∧
      decodeWrite onP [0x26, 0x0C, 1, 4, 0x70, 0x17, 0, 0, 0x28, 0x23, 0, 0, 0xA0, 0x0F, 0x48] =
        .setProfile onP [1, 4, 0x70, 0x17, 0, 0, 0x28, 0x23, 0, 0, 0xA0, 0x0F] ∧
      decodeWrite onP [0x27, 0x0B, 0, 0xAE, 1, 0x9A, 1, 0xE0, 1, 0xAE, 1, 0x86, 1, 0x6D] =
        .setSkinLimits onP [0, 0xAE, 1, 0x9A, 1, 0xE0, 1, 0xAE, 1, 0x86, 1] := by decide
theorem test_decode_domain_supply_and_line_requests :
    decodeWrite onP
        [0x28, 0x11, 0, 25, 1, 0, 0x40, 0x1F, 0, 0, 0xA0, 0x0F, 0, 0, 10, 5, 10, 100, 0, 0x22] =
        .setDomain onP [0, 25, 1, 0, 0x40, 0x1F, 0, 0, 0xA0, 0x0F, 0, 0, 10, 5, 10, 100, 0] ∧
      decodeWrite onP [0x29, 0x05, 3, 1, 0, 0, 4, 0xCA] = .setRouting onP [3, 1, 0, 0, 4] ∧
      decodeWrite onP
          [0x2A, 0x0F, 0xB8, 0x0B, 0, 0, 0xC8, 0xAF, 0, 0, 0x30, 0x75, 0, 0, 10, 50, 0, 0xAC] =
        .setSupplyConfig onP [0xB8, 0x0B, 0, 0, 0xC8, 0xAF, 0, 0, 0x30, 0x75, 0, 0, 10, 50, 0] ∧
      decodeWrite onP [0x30, 0x09, 0xE8, 0xFD, 0, 0, 90, 0xA8, 0x61, 0, 0, 0x7F] =
        .supplyReport onP [0xE8, 0xFD, 0, 0, 90, 0xA8, 0x61, 0, 0] := by decide
/-- R168's four cases of BAD_FRAME, and a kind outside the catalogue. -/
theorem test_decode_bad_frames :
    decodeWrite onS [] = .badFrame onS [] ∧
      decodeWrite onS [0x31, 0x05] = .badFrame onS [0x31, 0x05] ∧
      decodeWrite onS [0x40, 0x00, 0xC0, 0x00] = .badFrame onS [0x40, 0x00, 0xC0, 0x00] ∧
      decodeWrite onS [0x40, 0x00, 0xC1] = .badFrame onS [0x40, 0x00, 0xC1] ∧
      decodeWrite onS [0x50, 0x00, 0xB0] = .unknown onS 0x50 [] := by decide
theorem test_encode_set_cap :
    encodeWrite (.setCap onS [0x00, 0x20, 0x4E, 0x00, 0x00]) =
      some (onS, [0x31, 0x05, 0x00, 0x20, 0x4E, 0x00, 0x00, 0x5C]) := by decide

/-! ## Steps -/

/-- 00_scope.md section 4.1: uptime wraps to 0 after 4,294,967,294. -/
theorem test_uptime_wraps :
    (match step { idle with uptime := 4294967294 } with
      | .next t => t.uptime
      | _ => 1) = 0 := by decide
theorem test_step_takes_the_front :
    (match step { idle with pending := [.identify onP [], .dwellExpiry] } with
      | .next t => t.pending
      | _ => []) = [.dwellExpiry] := by decide

/-! ## Sensing (chapter 1) -/

/-- Section 1.3 at 20 ms: T3 expires while being converted. -/
theorem test_interval_expiry_overruns :
    (after (.intervalTimerExpiry .t3) crowded).faults.map (fun r => (r.kind, r.subject)) = [(.convOverrun, 3)] ∧
      (after (.intervalTimerExpiry .t3) crowded).queue = [.t0, .t1, .t2] := by decide
/-- Section 1.3 at 10 ms: T0 expires first and is taken at once; a diode converts in 3 ms. -/
theorem test_interval_expiry_begins :
    (after (.intervalTimerExpiry .t0) { idle with temps := idle.temps.set .t0 (fast .valid) }).converter =
      some { channel := .t0, kind := .diode, offset := -5, voided := false, timer := ⟨0, 3⟩ } := by decide
/-- Section 1.4: a third OPEN makes T2 FAILED, and TCH_FAILED carries OPEN. -/
theorem test_conversion_end_fails :
    let t := after (.conversionEnd .openPair) { crowded with queue := [], converter := some (converted .t2) }
    ((t.temps.get .t2).state, (t.temps.get .t2).value, (t.temps.get .t2).badRun) = (.failed, some 475, 3) ∧
      t.faults.map (fun r => (r.kind, r.subject, r.firstValue)) = [(.tchFailed, 2, some 0)] := by decide
/-- Section 1.4: a reading of 480 with offset −5 gives 475; section 1.3: the next head is taken. -/
theorem test_conversion_end_reads :
    let t := after (.conversionEnd (.degrees 480)) crowded
    (t.temps.get .t3).value = some 475 ∧ t.queue = [.t1, .t2] ∧ t.converter.map (·.channel) = some .t0 := by decide
/-- Section 1.6: 160000 mW is taken as 150000, and PCH_FAILED ends. -/
theorem test_sample_recovers :
    let s := sampled .pm0 { resetPower with state := .failed, value := some 21400, badRun := 5 } idle
    let t := after (.sampleArrival .pm0 (some 160000)) { s with faults := [record .pchFailed 0 (some true)] }
    (t.powers.pm0.state, t.powers.pm0.value) = (.valid, some 150000) ∧
      t.faults.map (·.present) = [some false] := by decide
/-- Section 5.13: the 3306th delivery of 10000 mW reaches the threshold. -/
theorem test_sample_reaches_burst :
    let a : Account :=
      { s := 28000, b := 45000, w := 28000, capacity := 476000000, credit := 118980000, state := .sustained
        percent := 100, sEff := 28000, bEff := 45000, threshold := 119000000, allowance := 28000 }
    let s := sampled .pm0 { resetPower with state := .valid, value := some 10000 } (at_ .desk .desk)
    let t := after (.sampleArrival .pm0 (some 10000)) { s with accounts := s.accounts.set .d0 a }
    (t.accounts.d0.credit, t.accounts.d0.state, t.accounts.d0.allowance) = (119016000, .burst, 45000) := by decide
/-- R11: an interval of 25 is taken as 20, and the reply is CLAMPED. -/
theorem test_set_channel_clamps :
    reply .platform (after (.setChannel onP [0, 1, 0, 25, 0, 0, 0, 2, 0x1A, 4]) idle) =
      [0xA0, 0x03, 0x01, 0x14, 0x00, 0x48] := by decide
/-- R11: T0 is a source of the enabled Z0 and cannot be disabled. -/
theorem test_set_channel_keeps_sources :
    reply .platform (after (.setChannel onP [0, 0, 0, 100, 0, 0, 0, 2, 0x1A, 4]) idle) =
      [0xA0, 0x01, 0x06, 0x59] := by decide
/-- R20: an interval of 17 is taken as 16; R18: PM3 is STARTING, so its fail value is REST at once (R98). -/
theorem test_set_power_channel :
    let t := after (.setPowerChannel onP [3, 17, 3, 0x28, 0x23, 0, 0]) idle
    reply .platform t = [0xA1, 0x02, 0x01, 0x10, 0x4C] ∧ t.supply.pool = 18000 := by decide

/-! ## Posture (chapter 2) -/

/-- Section 2.7's example at 1350 ms: the MOTION pin returns and the debounce is cancelled. -/
theorem test_level_return_cancels :
    let s := lined true false false false idle
    let line := { s.inputs.motion with pinHigh := true, debouncing := some ⟨⟨150, 500⟩, true⟩ }
    (after (.inputLevelChange .motion false) { s with inputs := s.inputs.set .motion line }).inputs.motion.debouncing =
      none := by decide
/-- The same at 1400 ms: the debounce starts from zero. -/
theorem test_level_change_starts :
    (after (.inputLevelChange .motion true) (lined true false false false idle)).inputs.motion.debouncing =
      some ⟨⟨0, 500⟩, true⟩ := by decide
/-- The same at 50 ms: the LID edge drops the hint, and the effective posture is DESK. -/
theorem test_lid_edge_drops_hint :
    let s := { lined false true false false (at_ .desk .lap) with
      effective := .lap, hint := some ⟨.lap, .system⟩, candidate := some .desk }
    let t := after (.debounceExpiry .lid) (debounced .lid true s)
    (t.hint, t.effective, t.candidate, t.dwell) = (none, .desk, some .desk, none) ∧
      (t.notices.platform.pending.has .inLid, t.notices.platform.pending.has .hintDropped,
        t.notices.platform.pending.has .posture) = (true, true, true) := by decide
/-- The same at 820 ms: BAG is more restrictive than DESK, the enter dwell starts, and the source is the battery. -/
theorem test_acin_edge_starts_dwell :
    let s := { lined true true false false (at_ .desk .desk) with candidate := some .desk }
    let t := after (.debounceExpiry .acin) (debounced .acin false s)
    (t.candidate, t.dwell, t.committed, t.supply.source) = (some .bag, some ⟨0, 1500⟩, .desk, .battery) := by decide
/-- The same at 2320 ms, and step 3 of chapter 3's example: the column in use becomes BAG, D0 takes its BAG entry. -/
theorem test_dwell_expiry_commits :
    let t := after .dwellExpiry { at_ .desk .desk with candidate := some .bag, dwell := some ⟨1500, 1500⟩ }
    (t.committed, t.effective, t.column, t.dwell) = (.bag, .bag, .bag, none) ∧
      (t.accounts.d0.s, t.accounts.d0.b, t.accounts.d0.capacity) = (8000, 12000, 20000000) := by decide
/-- R27: a changed polarity on a steady line starts the debounce timer in the new sense. -/
theorem test_set_input_polarity :
    (after (.setInput onP [0, 1, 50, 0, 3]) (lined false true false false idle)).inputs.lid.debouncing =
      some ⟨⟨0, 50⟩, true⟩ := by decide
/-- R31: an enter dwell of 10001 is taken as 10000. -/
theorem test_set_posture_timing_clamps :
    let t := after (.setPostureTiming onP [0x11, 0x27, 0x20, 0x4E, 0, 0]) idle
    (t.enterDwell, t.relaxDwell) = (10000, 20000) ∧ (reply .platform t).take 3 = [0xA3, 0x07, 0x01] := by decide
/-- Section 2.7's example at 5000 ms: DESK is less restrictive than the committed BAG. -/
theorem test_posture_hint_denied :
    reply .system (after (.postureHint onS [1]) (at_ .bag .bag)) = [0xB2, 0x01, 0x04, 0x49] := by decide
/-- R33, R34: a hint from Port P stands whatever is committed; R34: one from Port S waits behind it. -/
theorem test_posture_hint_taken :
    let t := after (.postureHint onP [1]) (at_ .bag .bag)
    (t.hint, t.effective, t.column) = (some ⟨.desk, .platform⟩, .desk, .desk) ∧
      reply .system (after (.postureHint onS [3]) t) = [0xB2, 0x01, 0x04, 0x49] := by decide

/-! ## Zones (chapter 4) and profile table (chapter 3) -/

/-- Section 4.7, update 3: diff 11, step 1, and the ladder jumps to 2. R58: a first update at 419, below the first enter
threshold of 420, moves no step, and the held count stays 0. -/
theorem test_zone_update_climbs :
    let z := (after (.zoneUpdate .z2) (skinned .active 434 1 7 90)).zones.z2
    let cool := { fast .valid with value := some 419 }
    let s := skinned .starting 0 0 0 100
    let first := (after (.zoneUpdate .z2) { s with temps := (s.temps.set .t2 cool).set .t5 cool }).zones.z2
    (z.estimate, z.state, z.position, z.held, z.percent) = (some 435, .active, 2, 0, 75) ∧
      (first.estimate, first.state, first.position, first.held) = (some 419, .active, 0, 0) := by decide
/-- Section 4.13, update 5: held 3 and 436 below 440 descend one step. -/
theorem test_zone_update_descends :
    let s := direct .active 436 3 3 60
    let warm := { fast .valid with value := some 436 }
    let z := (after (.zoneUpdate .z2) { s with temps := (s.temps.set .t2 warm).set .t5 warm }).zones.z2
    (z.estimate, z.position, z.held, z.percent) = (some 436, 2, 0, 75) := by decide
/-- Section 4.7's configuration enables Z2: it is STARTING, with percent 100 (R72). -/
theorem test_set_zone_enables :
    let s := { skinned .active 430 1 5 90 with zones := idle.zones, mode := .safe }
    let t := after (.setZone onP [2, 1, 2, 2, 160, 0, 5, 96, 0, 0, 0, 0, 2, 32, 0, 0xE8, 3, 10, 3, 30]) s
    reply .platform t = [0xA4, 0x03, 0x00, 0xE8, 0x03, 0x6E] ∧
      (t.zones.z2.state, t.zones.z2.estimate, t.zones.z2.percent, t.zones.z2.timer) =
        (.starting, none, 100, some ⟨0, 1000⟩) := by decide +kernel
/-- R70: weights that sum to 255 are INVALID. -/
theorem test_set_zone_weights :
    let s := { skinned .active 430 1 5 90 with zones := idle.zones, mode := .safe }
    reply .platform
        (after (.setZone onP [2, 1, 2, 2, 160, 0, 5, 95, 0, 0, 0, 0, 2, 32, 0, 0xE8, 3, 10, 3, 30]) s) =
      [0xA4, 0x01, 0x06, 0x55] := by decide +kernel
/-- R74: a position above the new step count is clamped, held becomes 0, and the percent is the new ladder's. -/
theorem test_set_ladder_clamps_position :
    let t := after (.setLadder onP [2, 1, 40, 0, 80]) (skinned .active 445 2 11 75)
    (t.zones.z2.position, t.zones.z2.held, t.zones.z2.percent, t.thermal.d1) = (1, 0, 80, 80) := by decide
/-- Section 3.7's example, step 4: D1's BAG entry is taken at once, with capacity 12,000,000 µJ. -/
theorem test_set_profile_reselects :
    let t := after (.setProfile onP [1, 4, 0x70, 0x17, 0, 0, 0x28, 0x23, 0, 0, 0xA0, 0x0F]) (at_ .bag .bag)
    (t.accounts.d1.s, t.accounts.d1.b, t.accounts.d1.capacity) = (6000, 9000, 12000000) := by decide
/-- The same, step 6: S = 3000 lies below D0's Lmin of 4000. -/
theorem test_set_profile_invalid :
    reply .platform
        (after (.setProfile onP [0, 0, 0xB8, 0x0B, 0, 0, 0x40, 0x1F, 0, 0, 0, 0]) (at_ .bag .bag)) =
      [0xA6, 0x01, 0x06, 0x53] := by decide
/-- Section 4.13's switch: against a limit of 420 the estimate 455 trips Z2 and jumps to 4. -/
theorem test_set_skin_limits_reselects :
    let t := after (.setSkinLimits onP [2, 0xAE, 1, 0x9A, 1, 0xE0, 1, 0xA4, 1, 0xA4, 1])
      (direct .active 455 3 0 60)
    (t.zones.z2.state, t.zones.z2.position, t.zones.z2.held, t.thermal.d1) = (.tripped, 4, 0, 40) ∧
      t.faults.map (fun r => (r.kind, r.subject, r.firstValue)) = [(.zoneTrip, 2, some 455)] := by decide

/-! ## Domains (chapters 5 to 7) -/

/-- Section 7.9 at 600,100: the window closes. -/
theorem test_settle_timer_idle :
    (after (.settleTimerExpiry .d0)
      { idle with compliance := idle.compliance.set .d0 ⟨.normal, 0, 0, some ⟨100, 100⟩⟩ }).compliance.d0.settle =
      none := by decide
/-- R115, R116: with Lmin 3000 D1's reset grant of 2000 becomes 3000, the floor still applied. -/
theorem test_set_domain_lmin :
    let t := after (.setDomain onP [1, 25, 1, 1, 0x88, 0x13, 0, 0, 0xB8, 0x0B, 0, 0, 10, 5, 10, 100, 0]) idle
    (t.grants.d1.limit, t.grants.d1.owner, t.grants.d1.floorApplied, t.grants.d1.changeCount) =
      (3000, .supply, true, 1) := by decide +kernel
/-- Section 7.9 at 600,000: D0's cap of 20000 ties with its new share, SUPPLY owns, and the settle window starts. -/
theorem test_set_cap_lowers_grant :
    let s := { shortfall with
      contributors := shortfall.contributors.set .d0 ⟨35000, some 35000, none, none, 100⟩
      grants := shortfall.grants.set .d0 ⟨35000, .profile, false, 41, 0⟩ }
    let t := after (.setCap onS [0, 0x20, 0x4E, 0, 0]) s
    (t.grants.d0.limit, t.grants.d0.owner, t.compliance.d0.settle) = (20000, .supply, some ⟨0, 100⟩) := by decide
/-- R111: a Port S cap below D0's floor of 8000 is raised to it, and the reply is CLAMPED. -/
theorem test_set_cap_floor :
    reply .system (after (.setCap onS [0, 0x88, 0x13, 0, 0]) active) =
      [0xB1, 0x05, 0x01, 0x40, 0x1F, 0x00, 0x00, 0xEA] := by decide

/-! ## Supply (chapter 6) -/

/-- Section 6.9, step 0: the shares of the shortfall. -/
theorem test_shares_of_the_shortfall :
    shortfall.supply =
      { source := .adapter, available := 58500, pool := 46500, demand := ⟨35000, 25000, 30000⟩
        share := ⟨some 35000, some 11500, some 0⟩ } := by decide
/-- Section 6.9, step 4: a battery limit of 45000 with REST 16000 and D0 at 18000. -/
theorem test_supply_report :
    let s := lined false false false true
      { shortfall with
        powers := shortfall.powers.set .pm3 { resetPower with state := .valid, value := some 16000 }
        accounts := shortfall.accounts.set .d0 { shortfall.accounts.d0 with state := .sustained, allowance := 18000 } }
    let t := after (.supplyReport onP [0xE8, 0xFD, 0, 0, 90, 0xC8, 0xAF, 0, 0]) s
    (t.supply.available, t.supply.pool, t.supply.share) = (45000, 26000, ⟨some 18000, some 8000, some 0⟩) := by decide
/-- R101 by hand: at reset with margin 0 the pool is 10000, D0 is given 8000 and D1 the 2000 that remain; R94: a trip time
of 0 is taken as 1. -/
theorem test_set_supply_config :
    let t := after (.setSupplyConfig onP [0, 0, 0, 0, 0xC8, 0xAF, 0, 0, 0x30, 0x75, 0, 0, 10, 0, 0]) idle
    t.supply.share = ⟨some 8000, some 2000, some 0⟩ ∧ reply .platform t = [0xAA, 0x03, 0x01, 0x01, 0x00, 0x51] := by
  decide
/-- Section 6.10 at 128 ms: a delivery at the threshold cancels the trip timer. -/
theorem test_sys_delivery_at_threshold :
    let s := sampled .pm4 { resetPower with state := .valid, value := some 28900 } idle
    let t := after (.sampleArrival .pm4 (some 27500))
      { s with supply := { s.supply with available := 25000 }, watch := ⟨.timing ⟨24, 50⟩, 28900⟩ }
    t.watch = ⟨.clear, 27500⟩ := by decide
/-- Section 6.10 at 182 ms: SUPPLY_TRIP carries 29300, the mode is SAFE, and every line is asserted. -/
theorem test_trip_timer_trips :
    let t := after .tripTimerExpiry { active with watch := ⟨.timing ⟨50, 50⟩, 29300⟩ }
    (t.watch.state, t.mode) = (.tripped, .safe) ∧
      t.faults.map (fun r => (r.kind, r.subject, r.firstValue)) = [(.supplyTrip, 0, some 29300)] ∧
      t.lines.map (·.cause) = ⟨.supplyTrip, .supplyTrip, .supplyTrip, .supplyTrip⟩ := by decide

/-! ## Throttle lines (chapter 8) -/

/-- Section 8.8 at 1001 ms: the pin reaches low, and the window timer is idle again. -/
theorem test_sensed_change_matches :
    let v := { idle.lines.thr0 with drive := true, window := some ⟨1, 4⟩ }
    let t := (after (.sensedLevelChange .thr0 false) { idle with lines := idle.lines.set .thr0 v }).lines.thr0
    (t.sensed, t.external, t.window) = (true, false, none) := by decide
/-- Section 8.8 at 2300 ms: the regulator lets go, and external assertion ends. -/
theorem test_sensed_change_ends_external :
    let v := { idle.lines.thr0 with pinHigh := false, sensed := true, external := true }
    let t := (after (.sensedLevelChange .thr0 true) { idle with lines := idle.lines.set .thr0 v }).lines.thr0
    (t.sensed, t.external, t.window) = (false, false, none) := by decide
/-- Section 8.8 at 5004 ms: LINE_STUCK THR0 is present, and the mode and the column are SAFE. -/
theorem test_window_expiry_sticks :
    let v := { idle.lines.thr0 with drive := true, window := some ⟨4, 4⟩ }
    let s := at_ .desk .desk
    let t := after (.readbackWindowExpiry .thr0) { s with lines := s.lines.set .thr0 v }
    (t.mode, t.column) = (.safe, .safe) ∧ t.faults.map (fun r => (r.kind, r.subject)) = [(.lineStuck, 0)] := by decide
/-- Section 8.7, steps 2 and 9 on THR3, which no source holds. -/
theorem test_force_line :
    let t := after (.forceLine onP [3, 1]) idle
    (t.lines.thr3.drive, t.lines.thr3.cause) = (true, .manual) ∧
      (after (.forceLine onP [3, 0]) t).lines.thr3.cause = .none := by decide
/-- R136: the FLOOR source of D1 at reset reaches THR3 when D1 is routed there. -/
theorem test_set_routing_moves_floor :
    let t := after (.setRouting onP [3, 2, 0, 0, 4]) idle
    (t.lines.thr3.drive, t.lines.thr3.cause, t.lines.thr3.pinOut) = (true, .floor, .low) := by decide
/-- R135: an open-drain line is ACTIVE_LOW only. -/
theorem test_set_routing_invalid :
    reply .platform (after (.setRouting onP [3, 2, 0, 1, 4]) idle) = [0xA9, 0x01, 0x06, 0x50] := by decide

/-! ## Fault log and mode (chapter 9) -/

/-- Section 9.10 at 16,000 ms: the event record goes, four present conditions stay. -/
theorem test_clear_faults :
    let t := after (.clearFaults onP []) blinded
    t.faults.map (fun r => (r.kind, r.subject)) = [(.tchFailed, 5), (.zoneTrip, 2), (.tchFailed, 2), (.zoneBlind, 2)] ∧
      reply .platform t = [0x92, 0x02, 0x00, 0x04, 0x68] := by decide
/-- Section 11.4, step 6: Port S is not listed. -/
theorem test_clear_faults_denied :
    reply .system (after (.clearFaults onS []) blinded) = [0x92, 0x01, 0x04, 0x69] := by decide
/-- Section 9.10 at 15,500 ms: check 1 fails on ZONE_BLIND Z2. -/
theorem test_activate_refused :
    reply .platform (after (.activate onP []) blinded) = [0xC0, 0x02, 0x05, 0x01, 0x38] := by decide
/-- Section 3.7's example, step 2, and section 5.13: the column is DESK, D0 allows 28000 of a capacity of 476,000,000. -/
theorem test_activate_switches :
    let t := after (.activate onP []) { at_ .desk .safe with mode := .safe }
    (t.mode, t.column) = (.active, .desk) ∧
      (t.accounts.d0.capacity, t.accounts.d0.state, t.accounts.d0.allowance) = (476000000, .sustained, 28000) := by decide
/-- R37, R113, R152, R154: leaving ACTIVE clears CAP_S and drops the hint of Port S. -/
theorem test_deactivate :
    let s := { at_ .desk .lap with
      hint := some ⟨.lap, .system⟩, effective := .lap, caps := idle.caps.set .d0 ⟨some 9000, some 8500⟩ }
    let t := after (.deactivate onP []) s
    (t.mode, t.column, t.hint, t.effective, t.caps.d0) = (.safe, .safe, none, .desk, ⟨some 9000, none⟩) := by decide

/-! ## Reads, notices and links (chapters 10 and 11) -/

/-- R174 on Port S with the strap high. -/
theorem test_identify :
    reply .system (after (.identify onS []) { idle with adrsel := true }) =
      [0x81, 0x07, 0x00, 0x43, 0x04, 0x32, 0x01, 0x53, 0x01, 0xAA] := by decide
/-- Section 11.9: body length 62; SAFE, UNSETTLED, no candidate, no hint, four undetermined lines, column SAFE, and Z0
STARTING with no estimate at position 0 and 100 percent. -/
theorem test_read_status :
    (reply .platform (after (.readStatus onP []) idle)).take 19 =
      [0x82, 62, 0, 0, 0, 0xFF, 0xFF, 0xFF, 0, 0, 0, 0, 0, 0, 1, 0x00, 0x80, 0, 100] := by decide
/-- R116's reset grants: D0 7000 by SUPPLY, D1 2000 by SUPPLY with the floor applied. -/
theorem test_read_grants :
    (reply .platform (after (.readGrants onP []) idle)).take 23 =
      [0x83, 40, 0, 0, 0x58, 0x1B, 0, 0, 2, 0, 0, 0, 0, 0, 0, 0, 1, 0xD0, 0x07, 0, 0, 2, 1] := by decide
/-- R164: D3 has the REST power of 20000 in the demand field, and absent markers else. -/
theorem test_read_domain_rest :
    ((reply .platform (after (.readDomain onP [3]) idle)).drop 80).take 9 =
      [0xFF, 0xFF, 0xFF, 0x20, 0x4E, 0, 0, 0xFF, 0xFF] := by decide
/-- Section 11.9 on Z0 at reset (section 4.1): STARTING, T0 with weight 256, influence D0 and D1. -/
theorem test_read_zone :
    (reply .platform (after (.readZone onP [0]) idle)).take 23 =
      [0x85, 63, 0, 0, 1, 0x00, 0x80, 0, 100, 0, 0, 1, 1, 0, 0x00, 0x01, 0xFF, 0xFF, 0xFF, 0xFF, 0xFF, 0xFF, 3] := by
  decide
/-- Section 11.9 on PM3 at reset: interval 2, hold count 3, fail value 20000, STARTING, no value. -/
theorem test_read_channel :
    (reply .platform (after (.readChannel onP [1, 3]) idle)).take 17 =
      [0x86, 15, 0, 1, 3, 2, 3, 0x20, 0x4E, 0, 0, 1, 0xFF, 0xFF, 0xFF, 0xFF, 0] := by decide
/-- Section 10.6: a log of six records read from 4 and from 6. -/
theorem test_read_faults :
    let s := { blinded with faults := blinded.faults ++ [record .excess 1 (some true)] }
    let r := reply .platform (after (.readFaults onP [4]) s)
    r.take 7 = [0x87, 37, 0, 6, 2, 5, 2] ∧ (r.drop 22).take 2 = [6, 1] ∧
      reply .platform (after (.readFaults onP [6]) s) = [0x87, 0x03, 0x00, 0x06, 0x00, 0x70] := by decide
/-- Section 10.3: Port S's sets, as they stand. -/
theorem test_read_notices :
    reply .system (after (.readNotices onS []) noticed) = [0x88, 0x05, 0x00, 0x01, 0x01, 0xFC, 0x1F, 0x56] := by
  decide
/-- Section 10.3: Port S clears GRANT; its line is released, Port P is untouched, and the reply shows BURST and GRANT. -/
theorem test_clear_notices :
    let t := after (.clearNotices onS [1, 0]) noticed
    t.notices = ⟨⟨0x101, 0x1F1E, true⟩, ⟨0x100, 0x1FFC, false⟩⟩ ∧
      reply .system t = [0x90, 0x03, 0x00, 0x01, 0x01, 0x6B] := by decide
/-- Section 10.3: Port S unmasks LADDER, which is pending, and its line is asserted. -/
theorem test_set_notice_mask :
    (after (.setNoticeMask onS [0xF4, 0x1F])
      { noticed with notices := ⟨⟨0x109, 0x1F1E, true⟩, ⟨0x108, 0x1FFC, false⟩⟩ }).notices.system =
      ⟨0x108, 0x1FF4, true⟩ := by decide
/-- Section 11.2 and R171: BAD_FRAME, and UNKNOWN with its kind echoed or 0x80. -/
theorem test_unread_writes :
    reply .system (after (.badFrame onS [0x31, 0x05]) idle) = [0x80, 0x01, 0x02, 0x7D] ∧
      reply .system (after (.unknown onS 0x50 []) idle) = [0xD0, 0x01, 0x03, 0x2C] ∧
      reply .system (after (.unknown onS 0x90 []) idle) = [0x80, 0x01, 0x03, 0x7C] := by decide
/-- R168: 64 data bytes, the first 63 of which would form a frame: byte 62 is acknowledged, byte 63 is refused, and the
write is BAD_FRAME. So is a request whose body of 61 bytes makes 64. -/
theorem test_refused_bytes :
    let bytes := frame 0x50 (List.replicate 60 0) ++ [0]
    (idle.links.system.byteAcknowledged bytes 62, idle.links.system.byteAcknowledged bytes 63) = (true, false) ∧
      (idle.links.system.receiveAll bytes).buffer.length = 63 ∧
      (after (.badFrame onS bytes) idle).links.system = ⟨[], 1, some [0x80, 0x01, 0x02, 0x7D], []⟩ ∧
      (after (.setCap onS (List.replicate 61 0)) active).links.system =
        ⟨[], 1, some [0x80, 0x01, 0x02, 0x7D], []⟩ := by decide +kernel
/-- Section 11.4, steps 7 and 8: two bytes of a reply are read and the rest is lost; then NONE. -/
theorem test_reply_read :
    let s := after (.clearFaults onS []) idle
    let t := after (.replyRead onS 2) s
    t.links.system = ⟨[], 0, none, [0x92, 0x01]⟩ ∧
      (after (.replyRead onS 5) t).links.system.sent = [0x80, 0x01, 0x07, 0x78, 0xFF] := by decide
/-- Section 6.6, R23 and R167: a reset in the middle of operation gives the reset shares and takes pins and strap. -/
theorem test_reset :
    let t := after (.reset (.ended true) ⟨true, false, false, false⟩ ⟨true, true, true, true⟩) shortfall
    (t.mode, t.adrsel, t.supply.share) = (.safe, true, ⟨some 7000, some 0, some 0⟩) ∧
      t.inputs.lid.debouncing = some ⟨⟨0, 50⟩, true⟩ := by decide
/-- R128, R167: while RST_N is low every output is high-impedance, no command has an effect, and no clock runs. -/
theorem test_reset_low :
    let t := after (.reset .low ⟨false, false, false, false⟩ ⟨false, false, false, false⟩) { noticed with uptime := 5 }
    (throttlePin .thr1 t, attentionPulled .platform t, throttlePin .thr1 idle) = (.highImpedance, false, .low) ∧
      exec (.identify onP []) t = .next t ∧ step t = .next t :=
  ⟨by decide, rfl, rfl⟩
/-- R167: with the strap high Port P answers to 0x3B, and neither to 0x3A nor to the general call. -/
theorem test_identify_address :
    let s := { idle with adrsel := true }
    ([0x3B, 0x3A, 0].map fun a => (reply .platform (after (.identify ⟨.platform, a⟩ []) s)).isEmpty) =
      [false, true, true] := by decide

/-! ## Witnesses: states and operands that meet the hypotheses of the statements -/

theorem witness_StepRunsFrontCommand :
    ({ idle with pending := [.dwellExpiry, .tripTimerExpiry] } : State).pending = .dwellExpiry :: [.tripTimerExpiry] := by
  decide

/-- An idle timer, a timer that has just started, and one with 1 ms left. -/
theorem witness_TimePassesWhileNoCommandWaits :
    idle.inReset = false ∧ idle.pending = [] ∧ expiryTimer idle .dwellExpiry = some none ∧
      expiryTimer idle (.zoneUpdate .z0) = some (some ⟨0, 1000⟩) ∧ (Timer.mk 0 1000).due = false ∧
      ({ idle with dwell := some ⟨1499, 1500⟩ } : State).inReset = false ∧
      expiryTimer { idle with dwell := some ⟨1499, 1500⟩ } .dwellExpiry = some (some ⟨1499, 1500⟩) ∧
      (Timer.mk 1499 1500).due = false ∧ (Timer.mk 1500 1500).due = true := by decide

/-- Bodies of 0 and of 60 bytes, and a write that is no frame. -/
theorem witness_DecodeAndEncodeAgree :
    (Instr.identify onS []).wellFormed = true ∧
      encodeWrite (.identify onS []) = some (onS, [0x01, 0x00, 0xFF]) ∧
      (Instr.unknown onP 0x7F (List.replicate 60 0)).wellFormed = true ∧
      (encodeWrite (.unknown onP 0x7F (List.replicate 60 0))).isSome = true ∧
      (Instr.badFrame onP []).wellFormed = true ∧ encodeWrite (.badFrame onP []) = some (onP, []) := by
  decide

/-- Each refusal in turn: a port that is not listed, each of the two kinds of wrong mode, and bodies out of shape in length,
in a code and in a step count. -/
theorem witness_RefusedRequestsOnlyAnswer :
    (idle.inReset = false ∧ active.inReset = false ∧ ([0, 0, 0, 0] : List Byte).length ≤ 60 ∧
        (0 :: 9 :: List.replicate 27 (0 : Byte)).length ≤ 60) ∧
      Kind.deactivate ∈
        [.clearFaults, .setChannel, .setPowerChannel, .setInput, .setPostureTiming, .setZone, .setLadder, .setProfile,
          .setSkinLimits, .setDomain, .setRouting, .setSupplyConfig, .supplyReport, .forceLine, .activate,
          .deactivate] ∧
      (active.mode = .active ∧ Kind.setSupplyConfig ∈ [.setInput, .setZone, .setDomain, .setRouting, .setSupplyConfig]) ∧
      (idle.mode = .safe ∧ Kind.postureHint ∈ [.setCap, .postureHint]) ∧
      ¬shaped .setCap [0, 0, 0, 0] ∧ shaped .setCap [0, 0, 0, 0, 0] ∧ ¬shaped .setRouting [0, 8, 0, 0, 4] ∧
      shaped .setRouting [0, 7, 0, 0, 4] ∧ ¬shaped .setLadder (0 :: 9 :: List.replicate 27 0) ∧
      shaped .setLadder (0 :: 8 :: List.replicate 24 0) := by
  simp only [shaped, bodyLength, fieldsDefined]
  decide

/-- Instance numbers one above the last, column 5, and a third source channel 8. -/
theorem witness_UnknownInstancesAreInvalid :
    (idle.inReset = false ∧ active.inReset = false) ∧ (Admitted .setCap .platform idle ∧ shaped .setCap [3, 0, 0, 0, 0] ∧ instanceLimit .setCap = some 2 ∧
        2 < u8 [3, 0, 0, 0, 0] 0) ∧
      (Admitted .setChannel .platform active ∧ shaped .setChannel [8, 1, 0, 100, 0, 0, 0, 2, 0x1A, 4] ∧
        instanceLimit .setChannel = some 7 ∧ 7 < u8 [8, 1, 0, 100, 0, 0, 0, 2, 0x1A, 4] 0) ∧
      (Admitted .setProfile .platform idle ∧ shaped .setProfile [0, 5, 0, 0, 0, 0, 0, 0, 0, 0, 0, 0] ∧
        4 < u8 [0, 5, 0, 0, 0, 0, 0, 0, 0, 0, 0, 0] 1) ∧
      (Admitted .setZone .platform idle ∧
        shaped .setZone [0, 1, 3, 0, 1, 0, 1, 1, 0, 8, 254, 0, 0, 64, 0, 100, 0, 10, 3, 30] ∧
        ∃ k, k < u8 [0, 1, 3, 0, 1, 0, 1, 1, 0, 8, 254, 0, 0, 64, 0, 100, 0, 10, 3, 30] 2 ∧ k < 3 ∧
          7 < u8 [0, 1, 3, 0, 1, 0, 1, 1, 0, 8, 254, 0, 0, 64, 0, 100, 0, 10, 3, 30] (3 + 3 * k)) := by
  simp only [Admitted, shaped, bodyLength, fieldsDefined]
  refine ⟨by decide, by decide, by decide, by decide, by decide, by decide, 2, by decide⟩

/-- Numbers one above the last of each kind of read. -/
theorem witness_ReadGrantsAndReadDomainReport : idle.inReset = false ∧ 3 < (4 : Byte).toNat := by decide
theorem witness_ReadZoneAndReadChannelReport :
    idle.inReset = false ∧ 3 < (4 : Byte).toNat ∧ 1 < (2 : Byte).toNat ∧ 7 < (8 : Byte).toNat ∧ 4 < (5 : Byte).toNat := by decide

/-- The last record of a log of five, read from index 1 and from index 4; nothing is left from index 5. -/
theorem witness_ReadFaultsReportsTheLog :
    blinded.inReset = false ∧ 3 < min 4 (blinded.faults.length - (1 : Byte).toNat) ∧
      blinded.faults[(1 : Byte).toNat + 3]? = some (record .zoneBlind 2 (some true)) ∧
      0 < min 4 (blinded.faults.length - (4 : Byte).toNat) ∧
      blinded.faults[(4 : Byte).toNat + 0]? = some (record .zoneBlind 2 (some true)) ∧
      min 4 (blinded.faults.length - (5 : Byte).toNat) = 0 := by decide

theorem witness_NoticeRequestsServeTheirPort : idle.inReset = false ∧ (31 : Byte).toNat < 32 := by decide

/-- T2 waits, T3 is being converted; T0 meets a converter busy with T3; T0 meets an idle converter. -/
theorem witness_IntervalExpiryRequestsAConversion :
    let waiting := { crowded with queue := [.t1, .t2] }
    let free := { crowded with queue := [], converter := none }
    (waiting.inReset = false ∧ free.inReset = false) ∧ (waiting.QueueSafe ∧ (waiting.temps.get .t2).timer = some ended ∧ ended.due = true ∧ TempId.t2 ∈ waiting.queue) ∧
      ((waiting.temps.get .t3).timer = some ended ∧ waiting.converter = some (converted .t3)) ∧
      ((waiting.temps.get .t0).timer = some ended ∧ TempId.t0 ∉ waiting.queue ∧ (converted .t3).channel ≠ .t0) ∧
      (free.QueueSafe ∧ (free.temps.get .t0).timer = some ended ∧ free.converter = none) := by
  refine ⟨by decide, ⟨⟨by decide, by decide, ?_, by decide⟩, by decide, by decide, by decide⟩, by decide, by decide,
    ⟨by decide, by decide, ?_, by decide⟩, by decide, by decide⟩
  · intro j h
    cases h
    decide
  · intro j h
    cases h

/-- Readings at both ends of the range, the four bad results, a channel that enters FAILED and one that leaves it, and a
voided conversion. -/
theorem witness_ConversionEndsReachTheirChannel :
    let failing := { crowded with converter := some (converted .t2) }
    let voided := { crowded with converter := some { converted .t3 with voided := true } }
    (crowded.inReset = false ∧ failing.inReset = false ∧ voided.inReset = false) ∧
      (crowded.converter = some (converted .t3) ∧ (converted .t3).timer.due = true ∧ (converted .t3).voided = false ∧
        (-400 : Int) ≤ -400 ∧ (1500 : Int) ≤ 1500 ∧ (crowded.temps.get .t3).state ≠ .failed) ∧
      (RawResult.degrees 1501 ≠ .openPair ∧ (1500 : Int) < 1501 ∧ (-401 : Int) < -400) ∧
      (failing.converter = some (converted .t2) ∧ (failing.temps.get .t2).state = .holding ∧
        badState (failing.temps.get .t2).state (min 8 ((failing.temps.get .t2).badRun + 1))
          (failing.temps.get .t2).cfg.holdCount = .failed ∧
        ∀ r ∈ failing.faults, (r.kind, r.subject) ≠ (.tchFailed, 2)) ∧
      (badState (crowded.temps.get .t3).state 2 2 ≠ .failed) ∧
      (voided.converter = some { converted .t3 with voided := true }) := by decide

/-- A request that leaves T0 as it is, one that ACTIVE bars, each value just out of its range, each at the end of it,
disabling a source, and the four changes. -/
theorem witness_SetChannelConfiguresTheChannel :
    let c0 : ChannelConfig :=
      { enabled := true, kind := .diode, interval := 100, offset := 0, holdCount := 2, failValue := 1050 }
    let invalid := fun cfg : ChannelConfig =>
      cfg.offset < -100 ∨ 100 < cfg.offset ∨ 7 < cfg.holdCount ∨ cfg.failValue < -400 ∨ 1500 < cfg.failValue ∨
        ((idle.temps.get .t0).cfg.enabled = true ∧ cfg.enabled = false ∧
          ∃ z, (idle.zones.get z).cfg.enabled = true ∧ ∃ src ∈ (idle.zones.get z).cfg.sources, src.channel = .t0)
    (idle.inReset = false ∧ active.inReset = false ∧ crowded.inReset = false) ∧
      (shapeSetChannel [0, 1, 0, 100, 0, 0, 0, 2, 0x1A, 4] = some ⟨0, c0⟩ ∧ 0 = TempId.t0.number ∧
        c0 = (idle.temps.get .t0).cfg ∧ ¬invalid c0) ∧
      (shapeSetChannel [0, 1, 1, 100, 0, 0, 0, 2, 0x1A, 4] = some ⟨0, { c0 with kind := .thermistor }⟩ ∧
        active.mode = .active ∧ (active.temps.get .t0).cfg.kind = .diode ∧ idle.mode = .safe ∧
        ¬invalid { c0 with kind := .thermistor }) ∧
      (shapeSetChannel [0, 1, 0, 0xF6, 9, 0x9C, 0xFF, 7, 0x70, 0xFE] =
          some ⟨0, { c0 with interval := 2550, offset := -100, holdCount := 7, failValue := -400 }⟩ ∧
        ¬invalid { c0 with interval := 2550, offset := -100, holdCount := 7, failValue := -400 } ∧
        ¬invalid { c0 with offset := 100, failValue := 1500 }) ∧
      (invalid { c0 with offset := 101 } ∧ invalid { c0 with offset := -101 } ∧ invalid { c0 with holdCount := 8 } ∧
        invalid { c0 with failValue := 1501 } ∧ invalid { c0 with failValue := -401 } ∧
        invalid { c0 with enabled := false }) ∧
      (shapeSetChannel [1, 0, 0, 200, 0, 0, 0, 2, 0x1A, 4] =
          some ⟨1, { c0 with enabled := false, interval := 200 }⟩ ∧ 1 = TempId.t1.number ∧
        (idle.temps.get .t1).cfg.enabled = false ∧
        ¬(idle.zones.z0.cfg.enabled = true ∧ ∃ src ∈ idle.zones.z0.cfg.sources, src.channel = .t1)) ∧
      ((crowded.temps.get .t3).cfg.enabled = true ∧ (crowded.temps.get .t3).state ≠ .failed ∧
        ¬∃ z, (crowded.zones.get z).cfg.enabled = true ∧
          ∃ src ∈ (crowded.zones.get z).cfg.sources, src.channel = .t3) := by
  simp only [ZoneId.exists_iff]
  and_intros <;> decide

/-- A sample, an invalid one that keeps the channel STARTING, and a channel other than PM4. -/
theorem witness_SampleUpdatesItsChannel :
    let s := sampled .pm0 resetPower idle
    s.inReset = false ∧ (s.powers.get .pm0).timer.due = true ∧ (s.powers.get .pm0).state ≠ .disabled ∧
      badState (s.powers.get .pm0).state (min 8 ((s.powers.get .pm0).badRun + 1)) (s.powers.get .pm0).holdCount =
        .starting ∧ PowerId.pm0 ≠ .pm4 := by decide

/-- Channel 5; a hold count of 8 and one of 7; a fail value of PM3 at 150000 and above; REST changed and kept; and the
four states of PM3. -/
theorem witness_SetPowerChannelConfiguresTheChannel :
    idle.inReset = false ∧ shapeSetPowerChannel [5, 2, 3, 0, 0, 0, 0] = some ⟨5, 2, 3, 0⟩ ∧ 4 < 5 ∧
      shapeSetPowerChannel [4, 2, 8, 0, 0, 0, 0] = some ⟨4, 2, 8, 0⟩ ∧ 4 = PowerId.pm4.number ∧ 7 < 8 ∧
      shapeSetPowerChannel [3, 0, 7, 0xF0, 0x49, 2, 0] = some ⟨3, 0, 7, 150000⟩ ∧ 3 = PowerId.pm3.number ∧
      ¬(7 < 7 ∨ (PowerId.pm3 = .pm3 ∧ 150000 < 150000)) ∧
      shapeSetPowerChannel [3, 0, 7, 0xF1, 0x49, 2, 0] = some ⟨3, 0, 7, 150001⟩ ∧ 150000 < 150001 ∧
      restValue idle.powers.pm3 150000 ≠ restValue idle.powers.pm3 idle.restFail ∧
      restValue { resetPower with state := .valid, value := some 9000 } 150000 =
        restValue { resetPower with state := .valid, value := some 9000 } 20000 ∧
      resetPower.state = .starting ∧ ({ resetPower with state := .failed } : PowerChannel).state = .failed ∧
      (({ resetPower with state := .holding, value := some 9000 } : PowerChannel).state = .holding ∧
        ({ resetPower with state := .holding, value := some 9000 } : PowerChannel).value = some 9000) := by decide

/-- Each quality of a delivery: a sample, a held power, and a substitute. -/
theorem witness_DeliveryReachesAccountAndCompliance :
    let v : PowerChannel := { resetPower with state := .valid, value := some 21400 }
    let held := sampled .pm0 v (at_ .lap .lap)
    let failing := sampled .pm0 { v with state := .holding, badRun := 3 } (at_ .lap .lap)
    (held.inReset = false ∧ failing.inReset = false ∧
        ∀ r ∈ held.faults, (r.kind, r.subject) ≠ (.excess, DomainId.d0.number)) ∧
      ((held.powers.get (channelOf .d0)).timer.due = true ∧ (failing.powers.get (channelOf .d0)).timer.due = true) ∧
      Delivers .d0 (some 160000) .valid 150000 held ∧ Delivers .d0 none .held 21400 held ∧
      Delivers .d0 none .substitute 35000 failing := by
  refine ⟨by decide, by decide, .inl ⟨160000, by decide⟩, .inr (.inl (by decide)), .inr (.inr (by decide))⟩

/-- A power at the threshold and one above it; a channel that enters FAILED, and one that stays STARTING or FAILED. -/
theorem witness_SysDeliveryDrivesTheTripWatch :
    let s := sampled .pm4 { resetPower with state := .valid, value := some 26000 } idle
    let failing := sampled .pm4 { resetPower with state := .holding, value := some 26000, badRun := 3 } idle
    let starting := sampled .pm4 resetPower idle
    (s.inReset = false ∧ failing.inReset = false ∧ starting.inReset = false) ∧
      (s.powers.pm4.timer.due = true ∧ s.powers.pm4.state ≠ .disabled) ∧
      (s.supply.available * (100 + s.supplyCfg.tripPercent) / 100 = 33000 ∧ ¬33000 < 33000 ∧ 33000 < 33001) ∧
      (badState s.powers.pm4.state (min 8 (s.powers.pm4.badRun + 1)) s.powers.pm4.holdCount = .holding) ∧
      (failing.powers.pm4.state ≠ .failed ∧
        badState failing.powers.pm4.state (min 8 (failing.powers.pm4.badRun + 1)) failing.powers.pm4.holdCount =
          .failed) ∧
      badState starting.powers.pm4.state (min 8 (starting.powers.pm4.badRun + 1)) starting.powers.pm4.holdCount =
        .starting := by decide

/-- The level that a pin has, a return, a change away, and a change away with debounce 0. -/
theorem witness_LevelChangeIsDebounced :
    let s := lined false true false false idle
    let line := s.inputs.get .lid
    let away := { line with pinHigh := true }
    let prompt := { line with cfg := { line.cfg with debounce := 0 } }
    s.inReset = false ∧ line.pinHigh = false ∧
      (line.pinHigh ≠ true ∧ line.state ≠ LineState.ofLevel (interpret line.cfg.polarity true) ∧
        line.cfg.debounce ≠ 0) ∧
      (away.pinHigh ≠ false ∧ away.state = LineState.ofLevel (interpret away.cfg.polarity false)) ∧
      (prompt.pinHigh ≠ true ∧ prompt.state ≠ LineState.ofLevel (interpret prompt.cfg.polarity true) ∧
        prompt.cfg.debounce = 0) := by decide

/-- A debounce timer that ends; a level that makes a candidate more restrictive, one that makes it equal to the committed
posture, one that leaves it; and an edge that drops a hint and one that does not. -/
theorem witness_TakenLevelIsHandedOn :
    let s := { lined true true false false (at_ .desk .desk) with candidate := some .desk }
    let back := { lined true false false false (at_ .desk .desk) with candidate := some .bag }
    (debounced .lid true s).inReset = false ∧
      (((debounced .lid true s).inputs.get .lid).debouncing = some ⟨ended, true⟩ ∧ ended.due = true) ∧
      ((takeLevel .acin false s).candidate = some .bag ∧ s.candidate ≠ some .bag ∧ Place.bag.posture ≠ s.committed) ∧
      ((takeLevel .acin true back).candidate = some .desk ∧ back.candidate ≠ some .desk ∧
        Place.desk.posture = back.committed) ∧
      (takeLevel .contact true s).candidate = s.candidate ∧
      ((s.inputs.get .lid).state ≠ .undetermined ∧ (idle.inputs.get .lid).state = .undetermined) := by decide

/-- A dwell timer that ends with a candidate, with no hint and with hints of both ports; and a body of 6 bytes. -/
theorem witness_DwellExpiryCommitsTheCandidate :
    let s := { at_ .desk .desk with candidate := some .bag, dwell := some ended }
    (s.inReset = false ∧ s.dwell = some ended ∧ ended.due = true ∧ s.candidate = some .bag) ∧
      (({ s with hint := some ⟨.lap, .system⟩ } : State).hint.isSome = true ∧ Place.lap.rank < Place.bag.rank) ∧
      ([0xDC, 0x05, 0x20, 0x4E, 0, 0] : List Byte).length = 6 := by decide

/-- Line 4; a changed polarity that differs from the state, and one that returns to it; a changed debounce while the timer
runs; and a changed trigger alone. -/
theorem witness_SetInputConfiguresTheLine :
    let s := lined false true false false idle
    let line := s.inputs.get .lid
    (s.inReset = false ∧ s.mode = .safe ∧ shapeSetInput [4, 0, 50, 0, 3] = some ⟨4, ⟨.activeHigh, 50, .both⟩⟩ ∧ 3 < 4) ∧
      (shapeSetInput [0, 1, 50, 0, 3] = some ⟨0, ⟨.activeLow, 50, .both⟩⟩ ∧ 0 = InputId.lid.number ∧
        Polarity.activeLow ≠ line.cfg.polarity ∧ line.state ≠ LineState.ofLevel (interpret .activeLow line.pinHigh) ∧
        LineState.asserted = LineState.ofLevel (interpret .activeLow line.pinHigh)) ∧
      (shapeSetInput [0, 0, 0xE8, 3, 3] = some ⟨0, ⟨.activeHigh, 1000, .both⟩⟩ ∧ 1000 ≠ line.cfg.debounce ∧
        (idle.inputs.get .lid).debouncing = some ⟨⟨0, 50⟩, false⟩) ∧
      (shapeSetInput [0, 0, 50, 0, 1] = some ⟨0, ⟨.activeHigh, 50, .rise⟩⟩ ∧ 50 = line.cfg.debounce ∧
        line.debouncing = none) := by decide

/-- Each branch of the checks: SAFE, the codes 0, 4 and 0xFE, an empty request behind a Port P hint and without one, and a
place below the committed posture and at it. -/
theorem witness_PostureHintFillsOrEmptiesTheSlot :
    (idle.inReset = false ∧ active.inReset = false ∧ (at_ .lap .lap).inReset = false) ∧
      (idle.mode = .safe ∧ active.mode = .active) ∧
      (3 < (4 : Byte).toNat ∧ (4 : Byte) ≠ 0xFF ∧ 3 < (0xFE : Byte).toNat ∧ (0xFE : Byte) ≠ 0xFF) ∧
      (({ active with hint := some ⟨.desk, .platform⟩ } : State).hint = some ⟨.desk, .platform⟩ ∧ active.hint = none) ∧
      ((1 : Byte) = BitVec.ofNat 8 Place.desk.posture.code ∧ (at_ .lap .lap).committed = .lap ∧
        (2 : Byte) = BitVec.ofNat 8 Place.lap.posture.code) := by decide

/-- A zone whose source is STARTING; Z2 as in section 4.7's update 3, as in its update 16, and at its first update. -/
theorem witness_ZoneUpdateFollowsTheSkin :
    let waiting := { idle with zones := idle.zones.set .z0 { idle.zones.z0 with timer := some ended } }
    let value := fun c : TempId => if c = .t2 then (473 : Int) else 398
    let offers := fun s : State =>
      ∀ src ∈ (s.zones.get .z2).cfg.sources, Offers (s.temps.get src.channel) (value src.channel)
    let climbing := skinned .active 434 1 7 90
    let tripped := skinned .tripped 503 4 1 40
    let first := skinned .starting 0 0 0 100
    (waiting.inReset = false ∧ climbing.inReset = false ∧ tripped.inReset = false ∧ first.inReset = false ∧
        ∀ r ∈ first.faults, (r.kind, r.subject) ≠ (.zoneTrip, ZoneId.z2.number)) ∧
      ((waiting.zones.get .z0).timer = some ended ∧ ended.due = true ∧
        ∃ src ∈ (waiting.zones.get .z0).cfg.sources,
          (waiting.temps.get src.channel).state = .starting ∨ (waiting.temps.get src.channel).state = .disabled) ∧
      ((climbing.zones.get .z2).timer = some ended ∧ offers climbing ∧ (climbing.zones.get .z2).state = .active ∧
        (climbing.zones.get .z2).estimate = some 434 ∧ IsTop (climbing.zones.get .z2).ladder 460 435 2) ∧
      (offers tripped ∧ (tripped.zones.get .z2).state = .tripped ∧ (tripped.zones.get .z2).estimate = some 503 ∧
        IsTop (tripped.zones.get .z2).ladder 460 496 4) ∧
      (offers first ∧ (first.zones.get .z2).state = .starting ∧ IsTop (first.zones.get .z2).ladder 460 445 2 ∧
        IsTop (first.zones.get .z2).ladder 460 419 0) := by
  have offers : ∀ src ∈ [(⟨.t2, 160⟩ : Source), ⟨.t5, 96⟩],
      Offers ((skinned .active 434 1 7 90).temps.get src.channel) (if src.channel = .t2 then (473 : Int) else 398) := by
    intro src h
    simp only [List.mem_cons, List.not_mem_nil, or_false] at h
    rcases h with rfl | rfl <;> exact .inl (by decide)
  refine ⟨by decide, by decide, ⟨by decide, offers, by decide, by decide, ladderTop_isTop 460 435 _⟩,
    ⟨offers, by decide, by decide, ladderTop_isTop 460 496 _⟩,
    ⟨offers, by decide, ladderTop_isTop 460 445 _, ladderTop_isTop 460 419 _⟩⟩

/-- Section 4.7's zone, with each field at the ends of its range and just out of it; a request that leaves Z1 as it is; one
that stores into a disabled zone; one that disables Z0. -/
theorem witness_SetZoneConfiguresTheZone :
    let s := { skinned .active 430 1 5 90 with zones := idle.zones, mode := .safe }
    let two : List Source := [⟨.t2, 160⟩, ⟨.t5, 96⟩]
    let r : ZoneRequest :=
      { zone := 2, enabled := true, sourceCount := 2, slots := [⟨2, 160⟩, ⟨5, 96⟩], influence := ⟨false, true, false⟩
        alpha := 32, interval := 1000, hysteresis := 10, descentDwell := 3, tripMargin := 30 }
    let invalid := fun (r : ZoneRequest) (sources : List Source) =>
      r.alpha = 0 ∨ 256 < r.alpha ∨ 100 < r.hysteresis ∨ r.descentDwell = 0 ∨ 15 < r.descentDwell ∨
        150 < r.tripMargin ∨ 3 < r.sourceCount ∨ (∃ src ∈ sources, src.weight = 0 ∨ 256 < src.weight) ∨
        (sources ≠ [] ∧ (¬(sources.map (·.channel)).Nodup ∨ (sources.map (·.weight)).sum ≠ 256)) ∨
        (r.enabled = true ∧ (sources = [] ∨ (∃ src ∈ sources, (s.temps.get src.channel).cfg.enabled = false) ∨
          r.influence = ⟨false, false, false⟩))
    (s.inReset = false ∧ s.mode = .safe ∧
        shapeSetZone [2, 1, 2, 2, 160, 0, 5, 96, 0, 0, 0, 0, 2, 32, 0, 0xE8, 3, 10, 3, 30] = some r ∧
        r.zone = ZoneId.z2.number ∧ r.slots = two.map (fun src => ⟨src.channel.number, src.weight⟩)) ∧
      (¬invalid r two ∧ ¬invalid { r with alpha := 256, hysteresis := 100, descentDwell := 15, tripMargin := 150 } two ∧
        ¬invalid { r with alpha := 1, hysteresis := 0, descentDwell := 1, tripMargin := 0 } [⟨.t2, 256⟩] ∧
        ¬invalid { r with enabled := false } [] ∧ ¬invalid { r with sourceCount := 3 } two) ∧
      (invalid { r with alpha := 0 } two ∧ invalid { r with alpha := 257 } two ∧ invalid { r with hysteresis := 101 } two ∧
        invalid { r with descentDwell := 0 } two ∧ invalid { r with descentDwell := 16 } two ∧
        invalid { r with tripMargin := 151 } two ∧ invalid { r with sourceCount := 4 } two) ∧
      (invalid r [⟨.t2, 0⟩, ⟨.t5, 256⟩] ∧ invalid r [⟨.t2, 257⟩] ∧ invalid r [⟨.t2, 160⟩, ⟨.t2, 96⟩] ∧
        invalid r [⟨.t2, 160⟩, ⟨.t5, 95⟩] ∧ invalid r [] ∧ invalid r [⟨.t1, 256⟩] ∧
        invalid { r with influence := ⟨false, false, false⟩ } two) ∧
      ({ enabled := false, sources := [], influence := ⟨false, false, false⟩, alpha := 64, interval := 1000
         hysteresis := 10, descentDwell := 3, tripMargin := 30 : ZoneConfig } = (s.zones.get .z1).cfg) ∧
      ((s.zones.get .z2).cfg.enabled = false ∧ (s.zones.get .z0).cfg.enabled = true) := by
  and_intros <;> decide

/-- An empty ladder; two steps at the ends of their ranges; each refusal; and the ladder that Z0 has. -/
theorem witness_SetLadderStoresTheSteps :
    let invalid := fun steps : List LadderStep =>
      (∃ a ∈ steps, 300 < a.offset ∨ 100 < a.percent) ∨
        ∃ k a b, steps[k]? = some a ∧ steps[k + 1]? = some b ∧ (a.offset ≤ b.offset ∨ a.percent < b.percent)
    (idle.inReset = false ∧ shapeSetLadder [0, 0] = some ⟨0, []⟩ ∧ 0 = ZoneId.z0.number ∧ ¬invalid [] ∧ [] ≠ idle.zones.z0.ladder) ∧
      (shapeSetLadder [0, 2, 0x2C, 1, 100, 0x2B, 1, 100] = some ⟨0, [⟨300, 100⟩, ⟨299, 100⟩]⟩ ∧
        ¬invalid [⟨300, 100⟩, ⟨299, 100⟩]) ∧
      (invalid [⟨301, 100⟩] ∧ invalid [⟨300, 101⟩] ∧ invalid [⟨30, 85⟩, ⟨30, 65⟩] ∧ invalid [⟨30, 85⟩, ⟨15, 86⟩]) ∧
      (shapeSetLadder [0, 3, 30, 0, 85, 15, 0, 65, 0, 0, 40] = some ⟨0, idle.zones.z0.ladder⟩ ∧
        ([⟨40, 80⟩] : List LadderStep).length < (skinned .active 445 2 11 75).zones.z2.position) := by
  refine ⟨⟨by decide, by decide, by decide, by simp, by decide⟩, ⟨by decide, ?_⟩,
    ⟨.inl (by decide), .inl (by decide), .inr ⟨0, _, _, rfl, rfl, by decide⟩, .inr ⟨0, _, _, rfl, rfl, by decide⟩⟩,
    by decide, by decide⟩
  rintro (h | ⟨k, a, b, ha, hb, h⟩)
  · revert h
    decide
  · rcases k with _ | _ | k
    · cases ha
      cases hb
      revert h
      decide
    · simp at hb
    · simp at hb

/-- Entries at the ends of the ranges of R44 and just out of them, in the column in use and in another. -/
theorem witness_SetProfileStoresTheEntry :
    let invalid := fun (d : DomainId) (e : Entry) =>
      e.s < 1000 ∨ e.b < e.s ∨ 150000 < e.b ∨ 64000 < e.w ∨ e.s < (idle.domains.get d).lmin
    (idle.inReset = false ∧ shapeSetProfile [2, 0, 0xE8, 3, 0, 0, 0xF0, 0x49, 2, 0, 0, 0xFA] =
        some ⟨DomainId.d2.number, Column.safe.number, ⟨1000, 150000, 64000⟩⟩ ∧ ¬invalid .d2 ⟨1000, 150000, 64000⟩ ∧
        Column.safe = idle.column ∧ (⟨1000, 150000, 64000⟩ : Entry) ≠ (idle.profile.get .d2).get .safe) ∧
      (¬invalid .d0 ⟨4000, 4000, 0⟩ ∧ Column.bag ≠ idle.column) ∧
      (invalid .d2 ⟨999, 2000, 0⟩ ∧ invalid .d2 ⟨2000, 1999, 0⟩ ∧ invalid .d2 ⟨1000, 150001, 0⟩ ∧
        invalid .d2 ⟨1000, 1000, 64001⟩ ∧ invalid .d0 ⟨3999, 4000, 0⟩) ∧
      (⟨8000, 8000, 0⟩ : Entry) = (idle.profile.get .d0).get idle.column := by
  and_intros <;> decide

/-- Limits at both ends of the range and one out of it; the limit in use kept and changed; a zone that counts and one that
does not. -/
theorem witness_SetSkinLimitsStoresTheLimits :
    let s := direct .active 455 3 0 60
    (s.inReset = false ∧ shapeSetSkinLimits [2, 0x70, 0xFE, 0x9A, 1, 0xE0, 1, 0xCC, 1, 0xDC, 5] =
        some ⟨ZoneId.z2.number, ⟨-400, 410, 480, 460, 1500⟩⟩ ∧ (∀ c, InRange (PerColumn.get ⟨-400, 410, 480, 460, 1500⟩ c)) ∧
        PerColumn.get ⟨-400, 410, 480, 460, 1500⟩ s.column = (s.skin.get .z2).get s.column) ∧
      (∃ c, ¬InRange (PerColumn.get ⟨-401, 410, 480, 460, 400⟩ c)) ∧
      (∃ c, ¬InRange (PerColumn.get ⟨430, 410, 480, 460, 1501⟩ c)) ∧
      (PerColumn.get ⟨430, 410, 480, 420, 420⟩ s.column ≠ (s.skin.get .z2).get s.column ∧
        (s.zones.get .z2).counts = true ∧ (s.zones.get .z1).counts = false) := by
  simp only [Column.forall_iff, Column.exists_iff, InRange]
  and_intros <;> decide

theorem witness_SettleTimerGoesIdle :
    let s := { idle with compliance := idle.compliance.set .d0 ⟨.normal, 0, 0, some ⟨100, 100⟩⟩ }
    s.inReset = false ∧ (s.compliance.get .d0).settle = some ⟨100, 100⟩ ∧ (Timer.mk 100 100).due = true := by decide

/-- D1's record with each field at the ends of its range, kept as it is, and just out of it. -/
theorem witness_SetDomainStoresTheRecord :
    let old := idle.domains.get .d1
    let invalid := fun r : DomainRecord =>
      r.recover = 0 ∨ 100 < r.recover ∨ 2 < r.priority ∨ 150000 < r.floor ∨ 150000 < r.lmin ∨
        (∃ c, ((idle.profile.get .d1).get c).s < r.lmin) ∨ 50 < r.tolerance ∨ r.aboveN = 0 ∨ 64 < r.aboveN ∨
        r.belowM = 0 ∨ 64 < r.belowM
    (idle.inReset = false ∧ idle.mode = .safe ∧
        shapeSetDomain [1, 100, 0, 2, 0xF0, 0x49, 2, 0, 0x88, 0x13, 0, 0, 50, 64, 64, 0xD1, 7] =
          some ⟨DomainId.d1.number, ⟨100, false, 2, 150000, 5000, 50, 64, 64, 2001⟩⟩ ∧
        ¬invalid ⟨100, false, 2, 150000, 5000, 50, 64, 64, 2001⟩ ∧ ¬invalid ⟨1, true, 0, 0, 0, 0, 1, 1, 0⟩) ∧
      (shapeSetDomain [1, 25, 1, 1, 0x88, 0x13, 0, 0, 0xD0, 7, 0, 0, 10, 5, 10, 100, 0] =
          some ⟨DomainId.d1.number, old⟩ ∧ ¬invalid old ∧ { old with settleTime := min 2000 old.settleTime } = old) ∧
      (invalid { old with recover := 0 } ∧ invalid { old with recover := 101 } ∧ invalid { old with priority := 3 } ∧
        invalid { old with floor := 150001 } ∧ invalid { old with lmin := 5001 } ∧ invalid { old with tolerance := 51 } ∧
        invalid { old with aboveN := 0 } ∧ invalid { old with aboveN := 65 } ∧ invalid { old with belowM := 0 } ∧
        invalid { old with belowM := 65 }) := by
  simp only [Column.exists_iff]
  and_intros <;> decide

/-- Port P in SAFE and Port S in ACTIVE; a cap, "none", a cap that is clamped, and the cap already held. -/
theorem witness_SetCapStoresThePortsCap :
    (idle.inReset = false ∧ active.inReset = false ∧ Port.platform ≠ .system ∧ active.mode = .active) ∧
      shapeSetCap [0, 0x20, 0x4E, 0, 0] = some ⟨DomainId.d0.number, some 20000⟩ ∧
      shapeSetCap [2, 0xFF, 0xFF, 0xFF, 0xFF] = some ⟨DomainId.d2.number, none⟩ ∧
      shapeSetCap [1, 0xF1, 0x49, 2, 0] = some ⟨DomainId.d1.number, some 150001⟩ ∧
      ({ idle.caps.get .d2 with capP := none } : Caps) = idle.caps.get .d2 := by decide

/-- The reset priorities, and all three shared. -/
theorem witness_SharesAreServedByPriority :
    let shared : PerDomain DomainRecord := ⟨resetDomain 1 0 0, resetDomain 1 0 0, resetDomain 1 0 0⟩
    ((idle.domains.get .d0).priority < (idle.domains.get .d1).priority ∧
        (idle.domains.get .d1).priority < (idle.domains.get .d2).priority) ∧
      ((shared.get .d0).priority = (shared.get .d1).priority ∧ DomainId.d0.number < DomainId.d1.number ∧
        (shared.get .d1).priority = (shared.get .d2).priority ∧ DomainId.d1.number < DomainId.d2.number) := by decide

/-- Reports with values kept and clamped; a configuration at the ends of its ranges, as it is, and just out of them. -/
theorem witness_SupplyRequestsFeedTheArbiter :
    let invalid := fun c : SupplyConfig =>
      20000 < c.margin ∨ c.unknownRating < 5000 ∨ 150000 < c.unknownRating ∨ c.batteryDefault < 5000 ∨
        150000 < c.batteryDefault ∨ 50 < c.tripPercent
    idle.inReset = false ∧ (([0xE8, 0xFD, 0, 0, 90, 0xA8, 0x61, 0, 0] : List Byte).length = 9 ∧ min 150000 65000 = 65000 ∧
        max 50 (min 100 49) ≠ 49) ∧
      (idle.mode = .safe ∧
        shapeSetSupplyConfig [0x20, 0x4E, 0, 0, 0xF0, 0x49, 2, 0, 0x88, 0x13, 0, 0, 50, 0xE9, 3] =
          some ⟨20000, 150000, 5000, 50, 1001⟩ ∧
        ¬invalid ⟨20000, 150000, 5000, 50, 1001⟩ ∧ ¬invalid ⟨0, 5000, 150000, 0, 1⟩ ∧ ¬invalid idle.supplyCfg) ∧
      (invalid { idle.supplyCfg with margin := 20001 } ∧ invalid { idle.supplyCfg with unknownRating := 4999 } ∧
        invalid { idle.supplyCfg with unknownRating := 150001 } ∧ invalid { idle.supplyCfg with batteryDefault := 4999 } ∧
        invalid { idle.supplyCfg with batteryDefault := 150001 } ∧ invalid { idle.supplyCfg with tripPercent := 51 }) := by
  and_intros <;> decide

/-- The trip timer at its end, in ACTIVE and in SAFE, with no SUPPLY_TRIP in the log and with one. -/
theorem witness_TripTimerExpiryTrips :
    let s := { active with watch := ⟨.timing ⟨50, 50⟩, 29300⟩ }
    (s.inReset = false ∧ s.watch.state = .timing ⟨50, 50⟩ ∧ (Timer.mk 50 50).due = true ∧ s.mode = .active ∧
        ∀ r ∈ s.faults, r.kind ≠ .supplyTrip) ∧
      (idle.mode = .safe ∧ ∃ r ∈ [record .supplyTrip 0 (some false)], r.kind = .supplyTrip) := by decide

/-- A pin that has the level and one that has not; a match, a mismatch, and each with LINE_STUCK present. -/
theorem witness_SensedChangeIsCompared :
    let v := { idle.lines.thr0 with drive := true, stuck := true }
    idle.inReset = false ∧ (idle.lines.get .thr0).pinHigh = true ∧ (idle.lines.get .thr0).pinHigh ≠ false ∧
      mismatch v.cfg.output v.drive (interpret v.cfg.polarity true) = true ∧
      mismatch v.cfg.output v.drive (interpret v.cfg.polarity false) = false := by decide

/-- THR1 at its reset mismatch with the window at its end, in SAFE and in ACTIVE; no record of the pair, and one that counts
255 and has ended; and a drive that leaving ACTIVE changes to a match. -/
theorem witness_WindowExpiryMakesTheLineStuck :
    let s := { idle with lines := idle.lines.set .thr1 { idle.lines.thr1 with window := some ⟨4, 4⟩ } }
    let old := { record .lineStuck 1 (some false) with count := 255 }
    let z := direct .tripped 500 4 0 40
    let released :=
      { z with
        zones := z.zones.set .z2 { z.zones.z2 with cfg := { z.zones.z2.cfg with influence := ⟨false, false, true⟩ } }
        skin := z.skin.set .z2 ⟨700, 410, 480, 460, 420⟩
        lines := z.lines.set .thr2 { z.lines.thr2 with drive := true, cause := .zoneTrip, window := some ⟨4, 4⟩ } }
    (s.inReset = false ∧ (s.lines.get .thr1).window = some ⟨4, 4⟩ ∧ (Timer.mk 4 4).due = true ∧ s.mode = .safe ∧
        s.LinesSafe ∧ ({ s with mode := .active } : State).mode = .active) ∧
      (∀ r ∈ s.faults, ¬(r.kind = .lineStuck ∧ r.subject = 1)) ∧
      (({ s with faults := [old] } : State).faults[0]? = some old ∧ old.kind = .lineStuck ∧ old.subject = 1) ∧
      (released.inReset = false ∧ released.mode = .active ∧ (released.lines.get .thr2).window = some ⟨4, 4⟩ ∧
        ((after (.readbackWindowExpiry .thr2) released).lines.get .thr2).drive ≠
          (released.lines.get .thr2).drive) := by
  simp only [State.LinesSafe, LineId.forall_iff, ThrottleLine.Safe]
  and_intros <;> decide

theorem witness_ForceLineSetsTheManualLevel :
    idle.inReset = false ∧ 3 < (4 : Byte).toNat ∧ (3 : Byte).toNat = LineId.thr3.number ∧ (idle.lines.get .thr3).manual ≠ true ∧
      (idle.lines.get .thr3).manual = false := by decide

/-- The pair of R135; the configuration that THR3 has; a changed routing that moves the drive; a changed polarity. -/
theorem witness_SetRoutingConfiguresTheLine :
    (idle.inReset = false ∧ idle.mode = .safe ∧ shapeSetRouting [3, 0, 0, 1, 4] = some ⟨3, ⟨⟨false, false, false⟩, .openDrain, .activeHigh, 4⟩⟩ ∧
        3 = LineId.thr3.number) ∧
      (shapeSetRouting [3, 0, 0, 0, 4] = some ⟨3, (idle.lines.get .thr3).cfg⟩ ∧
        ¬((idle.lines.get .thr3).cfg.output = .openDrain ∧ (idle.lines.get .thr3).cfg.polarity = .activeHigh)) ∧
      (shapeSetRouting [3, 2, 1, 1, 51] = some ⟨3, ⟨⟨false, true, false⟩, .pushPull, .activeHigh, 51⟩⟩ ∧
        driveOf (viewOf idle ⟨false, true, false⟩) false ≠ (idle.lines.get .thr3).drive) := by decide

/-- A pair that the log holds and one that it does not, of each severity. -/
theorem witness_FaultReportsReachTheLog :
    blinded.inReset = false ∧ (∃ r ∈ blinded.faults, r.kind = .convOverrun ∧ r.subject = 3) ∧
      ¬(∃ r ∈ blinded.faults, r.kind = .convOverrun ∧ r.subject = 2) ∧
      ¬(∃ r ∈ blinded.faults, r.kind = .supplyTrip ∧ r.subject = 0) := by decide

/-- ACTIVE; SAFE with each check of R150 the first to fail; and SAFE with none failing. -/
theorem witness_ActivateAndDeactivateSwitchTheMode :
    let shared := fun s : State => ∃ a b : DomainId, a ≠ b ∧ (s.domains.get a).arbitrated = true ∧
      (s.domains.get b).arbitrated = true ∧ (s.domains.get a).priority = (s.domains.get b).priority
    let ready := { active with mode := .safe }
    (active.inReset = false ∧ blinded.inReset = false ∧ idle.inReset = false ∧ ready.inReset = false) ∧
      active.mode = .active ∧ (blinded.mode = .safe ∧ ∃ r ∈ blinded.faults, r.severity = .fatal) ∧
      (idle.mode = .safe ∧ (¬∃ r ∈ idle.faults, r.severity = .fatal) ∧ idle.report.received = false) ∧
      (ready.report.received = true ∧ ¬shared ready) ∧
      shared { ready with domains := ready.domains.set .d1 (resetDomain 0 5000 2000) } := by
  simp only [DomainId.exists_iff]
  and_intros <;> decide

/-- A command that makes the mode ACTIVE, and a FATAL occurrence that makes it SAFE. -/
theorem witness_ModeChangesOnlyAsNamed :
    let ready := { active with mode := .safe }
    let timing := { active with watch := ⟨.timing ⟨50, 50⟩, 29300⟩ }
    (exec (.activate onP []) ready = .next (after (.activate onP []) ready) ∧ ready.mode = .safe ∧
        (after (.activate onP []) ready).mode = .active) ∧
      (exec .tripTimerExpiry timing = .next (after .tripTimerExpiry timing) ∧ timing.mode = .active ∧
        (after .tripTimerExpiry timing).mode = .safe) :=
  ⟨⟨rfl, by decide, by decide⟩, rfl, by decide, by decide⟩

/-- Both edges of a reset; a CLEAR_NOTICES that does not name GRANT; and SET_NOTICE_MASK on the other port. -/
theorem witness_NoticesStayUntilCleared :
    let r := Instr.reset (.ended false) ⟨false, false, false, false⟩ ⟨true, true, true, true⟩
    let low := Instr.reset .low ⟨false, false, false, false⟩ ⟨true, true, true, true⟩
    (exec r noticed = .next (after r noticed) ∧ IsReset r ∧
        exec low noticed = .next (after low noticed) ∧ IsReset low) ∧
      (exec (.clearNotices onS [0, 1]) noticed = .next (after (.clearNotices onS [0, 1]) noticed) ∧
        ¬IsReset (.clearNotices onS [0, 1]) ∧
        (∀ call body, Instr.clearNotices onS [0, 1] = .clearNotices call body → call.port = .system →
          (u16 body 0).testBit NoticeKind.grant.position = false) ∧
        (noticed.notices.get .system).pending.has .grant = true) ∧
      (exec (.setNoticeMask onP [0, 0]) noticed = .next (after (.setNoticeMask onP [0, 0]) noticed) ∧
        ¬IsReset (.setNoticeMask onP [0, 0]) ∧
        ∀ call body, Instr.setNoticeMask onP [0, 0] = .setNoticeMask call body → call.port ≠ .system) := by
  refine ⟨⟨rfl, ⟨_, _, _, rfl⟩, rfl, ⟨_, _, _, rfl⟩⟩, ⟨rfl, by simp [IsReset], ?_, by decide⟩, rfl, by simp [IsReset], ?_⟩
  · intro call body h _
    cases h
    decide
  · intro call body h
    cases h
    decide

/-- A commit that changes the effective posture, the column and the grants; a CONVERSION_END that adds a record; and a
debounced edge that the trigger admits. -/
theorem witness_ChangesRaiseTheirNotices :
    let s := { at_ .desk .desk with candidate := some .bag, dwell := some ⟨1500, 1500⟩ }
    let f := { crowded with converter := some (converted .t2) }
    let l := debounced .lid true (lined false true false false idle)
    (exec .dwellExpiry s = .next (after .dwellExpiry s) ∧ ¬IsReset .dwellExpiry ∧
        (after .dwellExpiry s).effective ≠ s.effective ∧ (after .dwellExpiry s).grants ≠ s.grants) ∧
      (exec (.conversionEnd .openPair) f = .next (after (.conversionEnd .openPair) f) ∧
        ∃ r ∈ (after (.conversionEnd .openPair) f).faults, ∀ r' ∈ f.faults, (r'.kind, r'.subject) ≠ (r.kind, r.subject)) ∧
      (exec (.debounceExpiry .lid) l = .next (after (.debounceExpiry .lid) l) ∧
        (l.inputs.get .lid).state ≠ .undetermined ∧
        ((after (.debounceExpiry .lid) l).inputs.get .lid).state ≠ (l.inputs.get .lid).state ∧
        ((after (.debounceExpiry .lid) l).inputs.get .lid).cfg.trigger = .both) := by
  refine ⟨⟨rfl, by simp [IsReset], by decide, by decide⟩, ⟨rfl, by decide⟩, rfl, by decide, by decide, by decide⟩

/-- After reset every entry, zone, account, grant and line is as its invariant says. -/
theorem idle_safe : idle.EntriesSafe ∧ idle.ZonesSafe ∧ idle.AccountsSafe ∧ idle.GrantsSafe ∧ idle.LinesSafe := by
  simp only [State.EntriesSafe, State.ZonesSafe, Zone.Safe, State.AccountsSafe, Account.Safe, State.GrantsSafe,
    State.LinesSafe, ThrottleLine.Safe, DomainId.forall_iff, Column.forall_iff, ZoneId.forall_iff, LineId.forall_iff]
  and_intros <;> decide

theorem witness_GrantsFollowTheContributors :
    idle.EntriesSafe ∧ idle.ZonesSafe ∧ idle.AccountsSafe ∧ idle.GrantsSafe :=
  ⟨idle_safe.1, idle_safe.2.1, idle_safe.2.2.1, idle_safe.2.2.2.1⟩

/-- A resolution that finds the record as it is, one that lowers the limit with a settle time above 0 and with 0, and one
that raises it. -/
theorem witness_GrantsFollowTheContributors_resolve :
    let offer := fun share => { idle with contributors := idle.contributors.set .d0 ⟨8000, some share, none, none, 100⟩ }
    let found := fun s : State => resolution (s.contributors.get .d0) (s.domains.get .d0).lmin
    let prompt := { offer 6000 with domains := idle.domains.set .d0 { idle.domains.d0 with settleTime := 0 } }
    (found idle).limit = (idle.grants.get .d0).limit ∧ (found idle).owner = (idle.grants.get .d0).owner ∧
      (found idle).floorApplied = (idle.grants.get .d0).floorApplied ∧
      (found (offer 6000)).limit < ((offer 6000).grants.get .d0).limit ∧
      ((offer 6000).domains.get .d0).settleTime ≠ 0 ∧ ((offer 6000).compliance.get .d0).state = .normal ∧
      (found prompt).limit < (prompt.grants.get .d0).limit ∧ (prompt.domains.get .d0).settleTime = 0 ∧
      ((offer 7500).grants.get .d0).limit < (found (offer 7500)).limit := by decide

/-- A state that has taken one report: the same report leaves it as it is. -/
theorem witness_SupplyRequestsFeedTheArbiter_sameReport :
    let body : List Byte := [0, 0, 0, 0, 100, 0x30, 0x75, 0, 0]
    let s := { idle with report := { rating := 0, derate := 100, battery := some 30000, received := true } }
    body.length = 9 ∧ s.GrantsSafe ∧ s.LinesSafe ∧ (after (.supplyReport onP body) s).report = s.report := by
  simp only [State.GrantsSafe, State.LinesSafe, ThrottleLine.Safe, DomainId.forall_iff, LineId.forall_iff]
  and_intros <;> decide

theorem witness_LinesSafe : idle.mode = .safe ∧ idle.LinesSafe ∧ LineId.thr0 ≠ LineId.thr3 :=
  ⟨rfl, idle_safe.2.2.2.2, by decide⟩

/-! A state that meets each invariant, and a step from it that answers a next state. -/

/-- The reset state with one command waiting. -/
def ready (c : Instr) : State := { idle with pending := [c] }

/-- The 100 ms of T0 are over. -/
theorem witness_EveryStepKeepsQueueAndChannels :
    let s := ready (.intervalTimerExpiry .t0)
    s.QueueSafe ∧ s.ChannelsSafe ∧ step s = .next (after (.intervalTimerExpiry .t0) idle) := by
  simp only [State.QueueSafe, State.ChannelsSafe, TempChannel.Safe, PowerChannel.Safe, TempId.forall_iff,
    PowerId.forall_iff]
  and_intros
  all_goals first
    | decide
    | rfl

/-- DESK of D1 gets another entry. -/
theorem witness_EveryStepKeepsRanges :
    let c := Instr.setProfile onP [1, 2, 0x88, 0x13, 0, 0, 0x70, 0x17, 0, 0, 10, 0]
    let s := ready c
    s.TemperaturesSafe ∧ s.EntriesSafe ∧ step s = .next (after c idle) := by
  simp only [State.TemperaturesSafe, InRange, State.EntriesSafe, TempId.forall_iff, ZoneId.forall_iff,
    DomainId.forall_iff, Column.forall_iff]
  and_intros
  all_goals first
    | decide
    | rfl

/-- The lid line is taken after its debounce time. -/
theorem witness_EveryStepKeepsPosture :
    let s := ready (.debounceExpiry .lid)
    s.InputsSafe ∧ s.PostureSafe ∧ s.SystemSafe ∧ step s = .next (after (.debounceExpiry .lid) idle) := by
  simp only [State.InputsSafe, InputLine.Safe, State.PostureSafe, State.SystemSafe, InputId.forall_iff,
    DomainId.forall_iff]
  and_intros
  all_goals first
    | decide
    | rfl

/-- Z0 updates. -/
theorem witness_EveryStepKeepsTheZones :
    let s := ready (.zoneUpdate .z0)
    s.ChannelsSafe ∧ s.ZonesSafe ∧ step s = .next (after (.zoneUpdate .z0) idle) :=
  ⟨witness_EveryStepKeepsQueueAndChannels.2.1, idle_safe.2.1, rfl⟩

/-- A sample arrives at D0. -/
theorem witness_EveryStepKeepsTheAccounts :
    let s := ready (.sampleArrival .pm0 (some 9000))
    s.AccountsSafe ∧ step s = .next (after (.sampleArrival .pm0 (some 9000)) idle) :=
  ⟨idle_safe.2.2.1, rfl⟩

/-- A report raises what can be drawn. -/
theorem witness_EveryStepKeepsTheGrants :
    let c := Instr.supplyReport onP [0xE8, 0xFD, 0, 0, 90, 0xA8, 0x61, 0, 0]
    (ready c).GrantsSafe ∧ step (ready c) = .next (after c idle) :=
  ⟨idle_safe.2.2.2.1, rfl⟩

/-- THR3 is forced. -/
theorem witness_EveryStepKeepsTheLines :
    let c := Instr.forceLine onP [3, 1]
    (ready c).ZonesSafe ∧ (ready c).LinesSafe ∧ step (ready c) = .next (after c idle) :=
  ⟨idle_safe.2.1, idle_safe.2.2.2.2, rfl⟩

/-- The log is cleared of what is not present. -/
theorem witness_EveryStepKeepsTheLog :
    let s := { ready (.clearFaults onP []) with
      faults := [record .convOverrun 3 none], severity := .warning }
    s.LogSafe ∧ step s = .next (after (.clearFaults onP []) { s with pending := [] }) := by
  simp only [State.LogSafe, FaultRecord.Safe]
  and_intros
  all_goals first
    | decide
    | rfl

/-- A sample fails to arrive. -/
theorem witness_EveryStepKeepsTheConditions :
    let s := ready (.sampleArrival .pm1 none)
    s.ChannelsSafe ∧ s.ConditionsSafe ∧ step s = .next (after (.sampleArrival .pm1 none) idle) := by
  refine ⟨witness_EveryStepKeepsQueueAndChannels.2.1, ?_, rfl⟩
  simp only [State.ConditionsSafe, presentIn, TempId.forall_iff, PowerId.forall_iff, ZoneId.forall_iff,
    DomainId.forall_iff, LineId.forall_iff]
  and_intros <;> decide

/-- A reply waits while the next request comes. -/
theorem witness_EveryStepKeepsPortsAndLinks :
    let s := after (.identify onS []) (ready (.readNotices onS []))
    s.NoticesSafe ∧ s.LinksSafe ∧ step s = .next (after (.readNotices onS []) { s with pending := [] }) := by
  have empty : ∀ k, (0 : NoticeSet).has k = false := fun k => by cases k <;> decide
  refine ⟨fun p => ?_, fun p => ?_, rfl⟩
  · have hpending : ((after (.identify onS []) (ready (.readNotices onS []))).notices.get p).pending = 0 := by
      cases p <;> rfl
    have hline : ((after (.identify onS []) (ready (.readNotices onS []))).notices.get p).attention = false := by
      cases p <;> rfl
    rw [hpending, hline]
    exact ⟨(by cases ·), fun ⟨k, h, _⟩ => absurd ((empty k).symm.trans h) (by decide)⟩
  · cases p
    · exact ⟨rfl, fun _ h => by cases h⟩
    · exact ⟨rfl, fun _ h => by cases h; unfold ReplyFrame; decide⟩

/-! The links, the reads without operands, and a part that is held in reset. -/

/-- Bytes 62 and 63 of 64; each test of R168 the one that fails: 2 bytes, 64 bytes, a length byte of 61, a byte too many, a
wrong sum; kinds below 0x80 and above that are in no catalogue; bodies of 60 and 61 bytes; and well-formed frames. -/
theorem witness_MalformedWritesAreAnsweredOnly :
    let framed := fun bytes : List Byte => 3 ≤ bytes.length ∧ bytes.length ≤ 63 ∧ (bytes.getD 1 0).toNat ≤ 60 ∧
      bytes.length = (bytes.getD 1 0).toNat + 3 ∧ (bytes.map BitVec.toNat).sum % 256 = 0
    (idle.inReset = false ∧ idle.call .system = onS ∧ idle.call .platform = onP) ∧
      (62 < (List.replicate 64 (0 : Byte)).length ∧ 63 < (List.replicate 64 (0 : Byte)).length) ∧
      (¬framed [0x01, 0x00] ∧ ¬framed (frame 0x50 (List.replicate 61 0)) ∧ ¬framed [0x40, 0x3D, 0x83] ∧
        ¬framed [0x40, 0x00, 0xC0, 0x00] ∧ ¬framed [0x40, 0x00, 0xC1]) ∧
      (encodeWrite (.badFrame onS [0x40, 0x00, 0xC1]) = some (idle.call .system, [0x40, 0x00, 0xC1]) ∧
        encodeWrite (.setCap onS (List.replicate 61 0)) =
          some (idle.call .system, frame 0x31 (List.replicate 61 0)) ∧
        ¬framed (frame 0x31 (List.replicate 61 0)) ∧
        encodeWrite (.unknown onP 0x50 (List.replicate 61 0)) =
          some (idle.call .platform, frame 0x50 (List.replicate 61 0))) ∧
      ((List.replicate 60 (0 : Byte)).length ≤ 60 ∧ (∀ k, kindCode k ≠ 0x50) ∧ (∀ k, kindCode k ≠ 0x90) ∧
        (0x50 : Byte).toNat < 128 ∧ ¬(0x90 : Byte).toNat < 128) ∧
      (framed [0x40, 0x00, 0xC0] ∧ framed (frame 0x50 (List.replicate 60 0))) := by
  refine ⟨by decide, by decide, by decide, by decide +kernel, ⟨by decide, ?_, ?_, by decide, by decide⟩,
    by decide +kernel⟩ <;>
    intro k <;> cases k <;> decide
/-- A reply of 4 bytes that waits, read as far as byte 1 of 2. -/
theorem witness_ReplyReadSendsAndEmptiesTheSlot :
    let s := after (.clearFaults onS []) idle
    s.inReset = false ∧ (s.links.get .system).slot = some [0x92, 0x01, 0x04, 0x69] ∧ 1 < 2 := by decide
theorem witness_IdentifyReportsThePart : idle.inReset = false := by decide
theorem witness_ReadStatusReportsTheSnapshot : noticed.inReset = false := by decide

/-- While RST_N is low: a level change is waiting, or nothing. -/
def heldInReset (pending : List Instr) : State :=
  { State.reset with inReset := true, schedule := 0, pending := pending }

theorem witness_ResetHoldsThePart :
    let c := Instr.inputLevelChange .lid true
    (heldInReset []).inReset = true ∧ ¬IsReset c ∧ (heldInReset []).pending = [] ∧ (heldInReset [c]).ResetSafe ∧
      step (heldInReset [c]) = .next (heldInReset []) :=
  ⟨rfl, by simp [IsReset], rfl, fun _ => rfl, rfl⟩

/-- Calls of the general call's address 0, of the other address of Port P, and of Port P's own, with the strap low and
high; and a call while RST_N is low. -/
theorem witness_TransactionsElsewhereAreIgnored :
    callOf (.identify ⟨.platform, 0⟩ []) = some ⟨.platform, 0⟩ ∧
      callOf (.replyRead ⟨.platform, 0x3B⟩ 4) = some ⟨.platform, 0x3B⟩ ∧
      callOf (.badFrame onS []) = some onS ∧ callOf (.unknown onP 0x50 []) = some onP ∧
      ((0 : BitVec 7) ≠ 0x3A ∧ (0x3B : BitVec 7) ≠ 0x3A) ∧ (heldInReset []).inReset = true ∧
      exec (.identify onP []) idle = .next (after (.identify onP []) idle) ∧ Port.system ≠ onP.port :=
  ⟨rfl, rfl, rfl, rfl, by decide, rfl, rfl, by decide⟩

end Sys2Proof.Tests
end

/-! # The sensing unit's part of the state: which commands reach it -/

namespace Sys2Proof.Machine

open Sys2Proof

/-! ## The sensing records -/

/-- What the sensing unit holds (chapter 1): the channel records, the conversion queue and the converter. -/
def State.sensing (s : State) : PerTemp TempChannel × List TempId × Option Conversion × PerPower PowerChannel :=
  (s.temps, s.queue, s.converter, s.powers)

theorem sensing_eq_iff (s t : State) :
    t.sensing = s.sensing ↔
      t.temps = s.temps ∧ t.queue = s.queue ∧ t.converter = s.converter ∧ t.powers = s.powers := by
  simp [State.sensing]

/-- The consequences of an event do not reach the sensing records. -/
theorem Evented.sensing {s t : State} (h : Evented s t) : t.sensing = s.sensing :=
  h.same State.sensing fun _ => rfl

theorem sensing_of_dwellOnly {s t : State} (h : t.withoutEvent.withoutDwell = s.withoutEvent.withoutDwell) :
    t.sensing = s.sensing :=
  same_of_erased (fun u => u.withoutEvent.withoutDwell) State.sensing (fun _ => rfl) h

theorem sensing_of_watchOnly {s t : State} (h : t.withoutEvent.withoutWatch = s.withoutEvent.withoutWatch) :
    t.sensing = s.sensing :=
  same_of_erased (fun u => u.withoutEvent.withoutWatch) State.sensing (fun _ => rfl) h

/-! ## The classifier's operations -/

theorem takeLevel_sensing (l : InputId) (a : Bool) (s : State) : (takeLevel l a s).sensing = s.sensing :=
  (sensing_of_dwellOnly (takeLevel_dwellOnly l a s)).trans rfl

theorem startDebounce_sensing (l : InputId) (a : Bool) (s : State) :
    (startDebounce l a s).sensing = s.sensing := by
  unfold startDebounce
  dsimp only
  split
  · exact takeLevel_sensing l a s
  · rfl

theorem levelChange_sensing (l : InputId) (s : State) : (levelChange l s).sensing = s.sensing := by
  unfold levelChange
  dsimp only
  split
  · rfl
  · exact startDebounce_sensing _ _ _

theorem configureInput_sensing (l : InputId) (cfg : InputConfig) (s : State) :
    (configureInput l cfg s).sensing = s.sensing := by
  unfold configureInput
  dsimp only
  split
  · exact levelChange_sensing _ _
  · split
    · split
      · exact startDebounce_sensing _ _ _
      · rfl
    · rfl

theorem commitCandidate_sensing (s : State) : (commitCandidate s).sensing = s.sensing :=
  sensing_of_dwellOnly (commitCandidate_dwellOnly s)

theorem placeHint_sensing (h : Option Hint) (s : State) : (placeHint h s).sensing = s.sensing :=
  (placeHint_evented h s).sensing

theorem supplyTrips_sensing (s : State) : (supplyTrips s).sensing = s.sensing :=
  (supplyTrips_evented s).sensing.trans rfl

/-! ## The owners of the requests that belong to other blocks -/

theorem ownReadDomain_sensing (n : Nat) (s : State) : (ownReadDomain n s).1.sensing = s.sensing := by
  unfold ownReadDomain
  split
  · rfl
  · split <;> rfl

theorem ownReadZone_sensing (n : Nat) (s : State) : (ownReadZone n s).1.sensing = s.sensing := by
  unfold ownReadZone
  split <;> rfl

theorem ownReadChannel_sensing (r : ChannelClass × Nat) (s : State) : (ownReadChannel r s).1.sensing = s.sensing := by
  unfold ownReadChannel
  split <;> split <;> rfl

theorem ownSetInput_sensing (r : InputRequest) (s : State) : (ownSetInput r s).1.sensing = s.sensing := by
  unfold ownSetInput
  split
  · rfl
  · exact configureInput_sensing _ _ _

theorem ownSetZone_sensing (r : ZoneRequest) (s : State) : (ownSetZone r s).1.sensing = s.sensing := by
  unfold ownSetZone
  split
  · split
    · exact (configureZone_evented _ _ _).sensing
    · rfl
  · rfl

theorem ownSetLadder_sensing (r : LadderRequest) (s : State) : (ownSetLadder r s).1.sensing = s.sensing := by
  unfold ownSetLadder
  split
  · rfl
  · split
    · exact (configureLadder_evented _ _ _).sensing
    · rfl

theorem ownSetProfile_sensing (r : ProfileRequest) (s : State) : (ownSetProfile r s).1.sensing = s.sensing := by
  unfold ownSetProfile
  split
  · split
    · exact (storeEntry_evented _ _ _ _).sensing.trans rfl
    · rfl
  · rfl

theorem ownSetSkinLimits_sensing (r : SkinRequest) (s : State) : (ownSetSkinLimits r s).1.sensing = s.sensing := by
  unfold ownSetSkinLimits
  split
  · rfl
  · split
    · exact (storeLimits_evented _ _ _).sensing.trans rfl
    · rfl

theorem ownSetDomain_sensing (r : DomainRequest) (s : State) : (ownSetDomain r s).1.sensing = s.sensing := by
  unfold ownSetDomain
  split
  · rfl
  · split
    · exact (configureDomain_evented _ _ _).sensing.trans rfl
    · rfl

theorem ownSetRouting_sensing (r : RoutingRequest) (s : State) : (ownSetRouting r s).1.sensing = s.sensing := by
  unfold ownSetRouting
  split
  · rfl
  · split
    · exact (configureLine_evented _ _ _).sensing
    · rfl

theorem ownForceLine_sensing (r : ForceRequest) (s : State) : (ownForceLine r s).1.sensing = s.sensing := by
  unfold ownForceLine
  split
  · rfl
  · dsimp only
    split
    · rfl
    · exact (endEvent_ended _).evented.sensing.trans rfl

theorem ownSetSupplyConfig_sensing (c : SupplyConfig) (s : State) :
    (ownSetSupplyConfig c s).1.sensing = s.sensing := by
  unfold ownSetSupplyConfig
  split
  · exact (configureSupply_evented _ _).sensing.trans rfl
  · rfl

theorem ownSupplyReport_sensing (r : ReportRequest) (s : State) : (ownSupplyReport r s).1.sensing = s.sensing :=
  (endEvent_evented (recomputeShares_offered _).evented).sensing.trans rfl

theorem ownSetCap_sensing (port : Port) (r : CapRequest) (s : State) : (ownSetCap port r s).1.sensing = s.sensing := by
  unfold ownSetCap
  split
  · rfl
  · exact (storeCap_evented _ _ _ _).sensing

/-- A hint is refused, or placed in the slot (R32 to R35). -/
theorem ownPostureHint_sensing (port : Port) (code : HintCode) (s : State) :
    (ownPostureHint port code s).1.sensing = s.sensing := by
  unfold ownPostureHint
  split
  · rfl
  · exact placeHint_sensing _ _
  · exact placeHint_sensing _ _
  · split
    · rfl
    · split
      · rfl
      · exact placeHint_sensing _ _
  · split
    · rfl
    · exact placeHint_sensing _ _

/-- ACTIVATE fails one of its checks, or changes the mode (R150, R151). -/
theorem ownActivate_sensing (u : Unit) (s : State) : (ownActivate u s).1.sensing = s.sensing := by
  unfold ownActivate
  split
  · rfl
  · split
    · rfl
    · split
      · rfl
      · split
        · rfl
        · exact (becomeActive_evented s).sensing

theorem ownDeactivate_sensing (u : Unit) (s : State) : (ownDeactivate u s).1.sensing = s.sensing := by
  unfold ownDeactivate
  split
  · exact (endEvent_evented (leaveActive_fallen s).evented).sensing
  · rfl

/-! ## The commands -/

/-- The commands whose meanings write the sensing records: the sensing unit's own, and RESET. -/
def reachesSensing : Instr → Bool
  | .reset _ _ _ => true
  | .intervalTimerExpiry _ => true
  | .conversionEnd _ => true
  | .sampleArrival _ _ => true
  | .setChannel _ _ => true
  | .setPowerChannel _ _ => true
  | _ => false

theorem atPort_sensing {call : Call} {f : Port → State → State} {s t : State}
    (own : (f call.port s).sensing = s.sensing) (h : atPort call f s = .next t) : t.sensing = s.sensing :=
  atPort_keeps (fun u => u.sensing = s.sensing) call f s t rfl own h

theorem takeWrite_sensing {port : Port} {bytes : List Byte} {taken : Byte → List Byte → State → State} {s : State}
    (own : ∀ kind body, (taken kind body s).sensing = s.sensing) :
    (takeWrite port bytes taken s).sensing = s.sensing :=
  takeWrite_keeps (fun u => u.sensing = s.sensing) (fun _ _ h => h) port bytes taken s rfl own

/-- A request writes the sensing records only where its owner does. -/
theorem request_sensing {α : Type} {kind : Kind} {call : Call} {shape : List Byte → Option α}
    {owner : Port → α → State → State × Reply} {body : List Byte} {s t : State}
    (own : ∀ r, (owner call.port r s).1.sensing = s.sensing)
    (h : atPort call (fun port => takeRequest kind port shape (owner port) body) s = .next t) : t.sensing = s.sensing :=
  atPort_sensing
    (takeRequest_keeps (fun u => u.sensing = s.sensing) (fun _ _ h => h) kind call.port shape (owner call.port) body s
      rfl fun _ r _ _ => own r) h

/-- The bus transactions of the other blocks leave the sensing records as they are. -/
theorem transaction_sensing (i : Instr) (s t : State) (hc : (callOf i).isSome = true) (hi : reachesSensing i = false)
    (h : exec i s = .next t) : t.sensing = s.sensing := by
  cases i <;> simp only [exec] at h
  case badFrame call bytes => exact atPort_sensing (takeWrite_sensing fun _ _ => rfl) h
  case unknown call kind body =>
    refine atPort_sensing (takeWrite_sensing fun received _ => ?_) h
    split <;> rfl
  case replyRead call clocked => exact atPort_sensing rfl h
  case identify call body =>
    exact request_sensing (owner := fun port _ u => (u, ⟨.ok, identifyFields port u⟩)) (fun _ => rfl) h
  case readStatus call body =>
    exact request_sensing (owner := fun _ _ u => (u, ⟨.ok, statusFields u⟩)) (fun _ => rfl) h
  case readGrants call body =>
    exact request_sensing (owner := fun _ _ u => (u, ⟨.ok, grantsFields u⟩)) (fun _ => rfl) h
  case readDomain call body =>
    exact request_sensing (owner := fun _ => ownReadDomain) (fun r => ownReadDomain_sensing r s) h
  case readZone call body =>
    exact request_sensing (owner := fun _ => ownReadZone) (fun r => ownReadZone_sensing r s) h
  case readChannel call body =>
    exact request_sensing (owner := fun _ => ownReadChannel) (fun r => ownReadChannel_sensing r s) h
  case readFaults call body =>
    exact request_sensing (owner := fun _ start u => (u, ⟨.ok, faultsFields start u.faults⟩)) (fun _ => rfl) h
  case readNotices call body => exact request_sensing (owner := ownReadNotices) (fun _ => rfl) h
  case clearNotices call body => exact request_sensing (owner := ownClearNotices) (fun _ => rfl) h
  case setNoticeMask call body => exact request_sensing (owner := ownSetNoticeMask) (fun _ => rfl) h
  case clearFaults call body => exact request_sensing (owner := fun _ => ownClearFaults) (fun _ => rfl) h
  case setInput call body =>
    exact request_sensing (owner := fun _ => ownSetInput) (fun r => ownSetInput_sensing r s) h
  case setPostureTiming call body => exact request_sensing (owner := fun _ => ownSetPostureTiming) (fun _ => rfl) h
  case setZone call body => exact request_sensing (owner := fun _ => ownSetZone) (fun r => ownSetZone_sensing r s) h
  case setLadder call body =>
    exact request_sensing (owner := fun _ => ownSetLadder) (fun r => ownSetLadder_sensing r s) h
  case setProfile call body =>
    exact request_sensing (owner := fun _ => ownSetProfile) (fun r => ownSetProfile_sensing r s) h
  case setSkinLimits call body =>
    exact request_sensing (owner := fun _ => ownSetSkinLimits) (fun r => ownSetSkinLimits_sensing r s) h
  case setDomain call body =>
    exact request_sensing (owner := fun _ => ownSetDomain) (fun r => ownSetDomain_sensing r s) h
  case setRouting call body =>
    exact request_sensing (owner := fun _ => ownSetRouting) (fun r => ownSetRouting_sensing r s) h
  case setSupplyConfig call body =>
    exact request_sensing (owner := fun _ => ownSetSupplyConfig) (fun r => ownSetSupplyConfig_sensing r s) h
  case supplyReport call body =>
    exact request_sensing (owner := fun _ => ownSupplyReport) (fun r => ownSupplyReport_sensing r s) h
  case setCap call body => exact request_sensing (owner := ownSetCap) (fun r => ownSetCap_sensing call.port r s) h
  case postureHint call body =>
    exact request_sensing (owner := ownPostureHint) (fun r => ownPostureHint_sensing call.port r s) h
  case forceLine call body =>
    exact request_sensing (owner := fun _ => ownForceLine) (fun r => ownForceLine_sensing r s) h
  case activate call body =>
    exact request_sensing (owner := fun _ => ownActivate) (fun r => ownActivate_sensing r s) h
  case deactivate call body =>
    exact request_sensing (owner := fun _ => ownDeactivate) (fun r => ownDeactivate_sensing r s) h
  all_goals simp [callOf, requestParts, reachesSensing] at hc hi

/-- A property of the sensing records that the passing of time keeps. -/
structure SensingProperty (P : State → Prop) : Prop where
  same : ∀ s t, t.sensing = s.sensing → P s → P t
  time : ∀ n s, P s → P (elapse n s)

theorem SensingProperty.await {P : State → Prop} (k : SensingProperty P) (w : Timer) {s : State} (h : P s) :
    P (await w s) := by
  unfold Machine.await
  split
  · exact h
  · exact k.time _ s h

/-- The events of the other blocks let time pass at most, as far as the sensing records go. -/
theorem event_keeps_sensing {P : State → Prop} (k : SensingProperty P) (i : Instr) (s t : State)
    (hc : callOf i = none) (hi : reachesSensing i = false) (hp : P s) (h : exec i s = .next t) : P t := by
  cases i <;> simp only [exec] at h
  case tripTimerExpiry =>
    refine outsideReset_keeps P _ s t hp ?_ h
    split
    · exact k.same _ _ (supplyTrips_sensing _) (k.await _ hp)
    · exact hp
    · exact hp
  case inputLevelChange l high =>
    refine outsideReset_keeps P _ s t hp ?_ h
    dsimp only
    split
    · exact hp
    · exact k.same s _ (levelChange_sensing _ _) hp
  case debounceExpiry l =>
    refine outsideReset_keeps P _ s t hp ?_ h
    split
    · exact hp
    · exact k.same _ _ (takeLevel_sensing _ _ _) (k.await _ hp)
  case dwellExpiry =>
    refine outsideReset_keeps P _ s t hp ?_ h
    split
    · exact hp
    · exact k.same _ _ (commitCandidate_sensing _) (k.await _ hp)
  case zoneUpdate z =>
    refine outsideReset_keeps P _ s t hp ?_ h
    split
    · exact hp
    · rename_i w _
      have restarted : ∀ v, P (setZoneRecord z v (Machine.await w s)) := fun v =>
      k.same (Machine.await w s) _ rfl (k.await w hp)
      dsimp only
      split
      · exact restarted _
      · exact k.same _ _ (endEvent_evented (updateZone_switched _ _ _).evented).sensing (restarted _)
  case settleTimerExpiry d =>
    refine outsideReset_keeps P _ s t hp ?_ h
    split
    · exact hp
    · rename_i w _
      exact k.same (Machine.await w s) _ rfl (k.await w hp)
  case sensedLevelChange l high =>
    refine outsideReset_keeps P _ s t hp ?_ h
    dsimp only
    split
    · exact hp
    · exact k.same s _ ((compareLine_ended _ _ _).evented.sensing.trans rfl) hp
  case readbackWindowExpiry l =>
    refine outsideReset_keeps P _ s t hp ?_ h
    split
    · exact hp
    · exact k.same _ _ (lineSticks_evented _ _).sensing (k.await _ hp)
  all_goals simp [callOf, requestParts, reachesSensing] at hc hi

/-- No command but RESET and the sensing unit's own breaks a property of the sensing records that time keeps. -/
theorem exec_keeps_sensing {P : State → Prop} (k : SensingProperty P) (i : Instr) (s t : State)
    (hi : reachesSensing i = false) (hp : P s) (h : exec i s = .next t) : P t := by
  cases hc : callOf i with
  | none => exact event_keeps_sensing k i s t hc hi hp h
  | some call => exact k.same s t (transaction_sensing i s t (by simp [hc]) hi h) hp

end Sys2Proof.Machine

/-! # The conversion queue (R3 to R5) -/

namespace Sys2Proof.Machine

open Sys2Proof

/-- There are 8 channels, so a queue that holds none twice has at most 8 entries (R3). -/
theorem length_le_of_nodup (q : List TempId) (h : q.Nodup) : q.length ≤ 8 :=
  (h.subperm fun c _ => TempId.mem_all c).length_le

/-- Queue and converter are safe where no channel stands twice in them and none waits for an idle converter. -/
theorem queueSafe_iff (s : State) :
    s.QueueSafe ↔ s.queue.Nodup ∧ (∀ j, s.converter = some j → j.channel ∉ s.queue) ∧
      (s.converter = none → s.queue = []) :=
  ⟨fun ⟨nodup, _, apart, idle⟩ => ⟨nodup, apart, idle⟩,
    fun ⟨nodup, apart, idle⟩ => ⟨nodup, length_le_of_nodup _ nodup, apart, idle⟩⟩

/-- Queue safety looks at the queue and at the channel being converted only. -/
theorem State.QueueSafe.congr {s t : State} (h : s.QueueSafe) (hq : t.queue = s.queue)
    (hc : t.converter.map (·.channel) = s.converter.map (·.channel)) : t.QueueSafe := by
  obtain ⟨nodup, apart, idle⟩ := (queueSafe_iff s).mp h
  refine (queueSafe_iff t).mpr ⟨hq ▸ nodup, fun j hj => ?_, fun hn => ?_⟩
  · rw [hj, Option.map_some] at hc
    obtain ⟨j', hj', e⟩ := Option.map_eq_some_iff.mp hc.symm
    rw [hq, ← e]
    exact apart j' hj'
  · rw [hn, Option.map_none] at hc
    rw [hq]
    exact idle (Option.map_eq_none_iff.mp hc.symm)

theorem State.QueueSafe.of_sensing {s t : State} (h : s.QueueSafe) (e : t.sensing = s.sensing) : t.QueueSafe := by
  obtain ⟨_, hq, hc, _⟩ := (sensing_eq_iff s t).mp e
  exact h.congr hq (by rw [hc])

theorem State.QueueSafe.elapse {s : State} (n : Nat) (h : s.QueueSafe) : (elapse n s).QueueSafe :=
  h.congr rfl (by simp [Function.comp_def])

theorem State.QueueSafe.voidConversion {s : State} (c : TempId) (h : s.QueueSafe) : (voidConversion c s).QueueSafe := by
  refine h.congr rfl ?_
  rw [voidConversion_converter, Option.map_map]
  congr 1
  funext j
  simp only [Function.comp_apply]
  split <;> rfl

/-- Taking the head of a queue without repetitions leaves a safe queue and converter (R5). -/
theorem State.QueueSafe.startConversion_of_idle {s : State} (hn : s.queue.Nodup) (hc : s.converter = none) :
    (startConversion s).QueueSafe := by
  obtain ⟨none_waits, head_taken⟩ := startConversion_takesHead s hc
  rw [queueSafe_iff]
  cases hq : s.queue with
  | nil =>
    obtain ⟨hq', hc'⟩ := none_waits hq
    simp [hq', hc']
  | cons c rest =>
    obtain ⟨hq', hc'⟩ := head_taken c rest hq
    rw [hq, List.nodup_cons] at hn
    simp [hq', hc', hn]

/-- A channel that neither waits nor is being converted joins the tail, or begins at once (R4, R5). -/
theorem State.QueueSafe.request {s : State} (c : TempId) (h : s.QueueSafe) (hq : c ∉ s.queue)
    (hc : converting c s = false) :
    (startConversion { s with queue := s.queue ++ [c] }).QueueSafe := by
  obtain ⟨nodup, apart, _⟩ := (queueSafe_iff s).mp h
  have joined : (s.queue ++ [c]).Nodup := by simpa using nodup.concat hq
  rcases Option.eq_none_or_eq_some s.converter with hs | ⟨j, hs⟩
  · exact State.QueueSafe.startConversion_of_idle joined hs
  · have other : j.channel ≠ c := by simpa [converting, hs] using hc
    rw [startConversion_busy { s with queue := s.queue ++ [c] } j hs, queueSafe_iff]
    simp [hs, joined, apart j hs, other]

/-- A channel that leaves the queue leaves it safe (R13). -/
theorem State.QueueSafe.unqueued {s : State} (c : TempId) (h : s.QueueSafe) :
    State.QueueSafe { s with queue := s.queue.filter fun q => q != c } := by
  obtain ⟨nodup, apart, idle⟩ := (queueSafe_iff s).mp h
  refine (queueSafe_iff _).mpr ⟨nodup.filter _, fun j hj hm => apart j hj (List.mem_of_mem_filter hm), fun hn => ?_⟩
  simp [idle hn]

theorem queueSafe_reset : State.reset.QueueSafe := (queueSafe_iff _).mpr (by simp [State.reset])

/-- Queue safety is kept by every change that a command can make. -/
theorem queueSafe_kept : KeptByChanges State.QueueSafe where
  event _ _ e h := h.of_sensing (Evented.sensing e)
  dwell _ _ e h := h.of_sensing (sensing_of_dwellOnly e)
  watch _ _ e h := h.of_sensing (sensing_of_watchOnly e)
  links _ _ h := h
  time n _ h := h.elapse n
  temp _ _ _ h := h
  power _ _ _ h := h
  request s c hq hc h := h.request c (by simpa using hq) hc
  conversionEnd s t e h := by
    have queue : t.queue = s.queue :=
      (same_of_erased (fun u => u.withoutEvent.withoutTemps) State.queue (fun _ => rfl) e).trans rfl
    have converter : t.converter = none :=
      (same_of_erased (fun u => u.withoutEvent.withoutTemps) State.converter (fun _ => rfl) e).trans rfl
    exact State.QueueSafe.startConversion_of_idle (queue ▸ ((queueSafe_iff s).mp h).1) converter
  voided _ c h := h.voidConversion c
  unqueued _ c h := h.unqueued c
  restFail _ _ h := h
  inputs _ _ h := h
  timing _ _ _ h := h
  profile _ _ h := h
  skin _ _ h := h
  domains _ _ h := h
  report _ _ h := h
  supplyCfg _ _ h := h
  reset _ _ := queueSafe_reset
  resetEnds _ _ _ _ _ := queueSafe_reset

end Sys2Proof.Machine

/-! # The channel records (R1, R2, R8, R9, R12 to R16) -/

namespace Sys2Proof.Machine

open Sys2Proof

/-! ## Temperature channels -/

/-- The interval timer of a channel runs exactly while it is enabled (R2). -/
theorem TempChannel.Safe.timer_runs {v : TempChannel} (h : v.Safe) : v.timer.isSome = v.cfg.enabled := by
  obtain ⟨_, runs, _⟩ := h
  exact runs

theorem TempChannel.Safe.enabled_of_timer {v : TempChannel} (h : v.Safe) {w : Timer} (hw : v.timer = some w) :
    v.cfg.enabled = true := by
  rw [← h.timer_runs, hw]
  rfl

/-- Configuration and interval timer may be replaced where the enabled flag stays and the timer runs as it says (R2,
R14). -/
theorem TempChannel.Safe.configured {v : TempChannel} (h : v.Safe) (cfg : ChannelConfig) (timer : Option Timer)
    (enabled : cfg.enabled = v.cfg.enabled) (runs : timer.isSome = cfg.enabled) :
    TempChannel.Safe { v with cfg := cfg, timer := timer } := by
  obtain ⟨hstate, _, rest⟩ := h
  exact ⟨enabled ▸ hstate, runs, rest⟩

/-- A channel with no good value and no bad run, DISABLED or STARTING as its enabled flag says (R12, R13, R14). -/
theorem TempChannel.emptied_safe (v : TempChannel) (state : ChannelState) (cfg : ChannelConfig) (timer : Option Timer)
    (hstate : state = if cfg.enabled then .starting else .disabled) (runs : timer.isSome = cfg.enabled) :
    TempChannel.Safe { v.emptied state with cfg := cfg, timer := timer } := by
  cases e : cfg.enabled <;> simp_all [TempChannel.Safe, TempChannel.emptied]

/-- A reading makes an enabled channel VALID with a value (R8). -/
theorem TempChannel.Safe.good {v : TempChannel} (h : v.Safe) (enabled : v.cfg.enabled = true) (x o : Int) (now : Nat) :
    (v.good x o now).Safe := by
  simp [TempChannel.Safe, TempChannel.good, enabled, h.timer_runs]

/-- The table of R9 and R16: a channel is DISABLED after a bad outcome where it was, HOLDING only where it held a good
value, and STARTING only where it was. -/
theorem stateAfterBad_cases (old : ChannelState) (run hold : Nat) :
    (stateAfterBad old run hold = .disabled ↔ old = .disabled) ∧ stateAfterBad old run hold ≠ .valid ∧
      (stateAfterBad old run hold = .holding → old = .valid ∨ old = .holding) ∧
      (stateAfterBad old run hold = .starting → old = .starting) := by
  by_cases within : run ≤ hold <;> cases old <;> simp [stateAfterBad, within]

/-- A bad outcome keeps the last good value and starts or lengthens the bad run (R9). -/
theorem TempChannel.Safe.bad {v : TempChannel} (h : v.Safe) (indication : BadIndication) : (v.bad indication).Safe := by
  obtain ⟨hstate, runs, held, unheld, dated, run, _⟩ := h
  obtain ⟨disabled, notValid, holding, starting⟩ :=
    stateAfterBad_cases v.state (min 8 (v.badRun + 1)) v.cfg.holdCount
  refine ⟨disabled.trans hstate, runs, ?_, ?_, dated, ?_, min_le_left _ _⟩
  · rintro (e | e)
    · exact absurd e notValid
    · exact held (holding e)
  · rintro (e | e)
    · exact unheld (.inl (disabled.mp e))
    · exact unheld (.inr (starting e))
  · have lengthened : min 8 (v.badRun + 1) ≠ 0 := by omega
    by_cases first : v.badRun = 0 <;> simp [TempChannel.bad, first, run]

/-! ## Power channels -/

/-- Interval, hold count and sample timer are free (R20). -/
theorem PowerChannel.Safe.configured {v : PowerChannel} (h : v.Safe) (interval holdCount : Nat) (timer : Timer) :
    PowerChannel.Safe { v with interval := interval, holdCount := holdCount, timer := timer } := h

/-- A sample, valid or not, keeps a power channel safe (R16). -/
theorem PowerChannel.Safe.after {v : PowerChannel} (h : v.Safe) (sample : Option Nat) : (v.after sample).Safe := by
  obtain ⟨enabled, held, _, bounded⟩ := h
  cases sample with
  | some power => simp [PowerChannel.Safe, PowerChannel.after]
  | none =>
    obtain ⟨disabled, notValid, holding, _⟩ := stateAfterBad_cases v.state (min 8 (v.badRun + 1)) v.holdCount
    refine ⟨fun e => enabled (disabled.mp e), ?_, min_le_left _ _, bounded⟩
    rintro (e | e)
    · exact absurd e notValid
    · exact held (holding e)

/-! ## All channels, with queue and converter -/

theorem State.ChannelsSafe.temp {s : State} (h : s.ChannelsSafe) (c : TempId) : (s.temps.get c).Safe := h.1 c

theorem State.ChannelsSafe.power {s : State} (h : s.ChannelsSafe) (n : PowerId) : (s.powers.get n).Safe := by
  obtain ⟨_, powers, _⟩ := h
  exact powers n

/-- A conversion that is not voided is that of an enabled channel (R6). -/
theorem State.ChannelsSafe.counts {s : State} (h : s.ChannelsSafe) {j : Conversion} (hj : s.converter = some j)
    (voided : j.voided = false) : (s.temps.get j.channel).cfg.enabled = true := by
  obtain ⟨_, _, _, counting⟩ := h
  exact counting j hj voided

theorem State.ChannelsSafe.of_sensing {s t : State} (h : s.ChannelsSafe) (e : t.sensing = s.sensing) :
    t.ChannelsSafe := by
  obtain ⟨ht, hq, hc, hp⟩ := (sensing_eq_iff s t).mp e
  unfold State.ChannelsSafe
  rw [ht, hq, hc, hp]
  exact h

theorem State.ChannelsSafe.elapse {s : State} (n : Nat) (h : s.ChannelsSafe) : (elapse n s).ChannelsSafe := by
  obtain ⟨temps, powers, waiting, counting⟩ := h
  refine ⟨fun c => ?_, fun p => ?_, fun c hc => ?_, fun j hj voided => ?_⟩
  · rw [elapse_temps, PerTemp.get_map]
    exact (temps c).configured _ _ rfl (by simpa using (temps c).timer_runs)
  · rw [elapse_powers, PerPower.get_map]
    exact (powers p).configured _ _ _
  · rw [elapse_temps, PerTemp.get_map]
    exact waiting c hc
  · rw [elapse_converter] at hj
    obtain ⟨j', hj', rfl⟩ := Option.map_eq_some_iff.mp hj
    rw [elapse_temps, PerTemp.get_map]
    exact counting j' hj' voided

theorem channelsSafe_property : SensingProperty State.ChannelsSafe where
  same _ _ e h := h.of_sensing e
  time n _ h := h.elapse n

/-- A channel neither waits nor has a conversion that counts (R13). -/
def Unused (c : TempId) (s : State) : Prop :=
  c ∉ s.queue ∧ ∀ j, s.converter = some j → j.voided = false → j.channel ≠ c

/-- A disabled channel is unused. -/
theorem State.ChannelsSafe.unused {s : State} (h : s.ChannelsSafe) {c : TempId}
    (off : (s.temps.get c).cfg.enabled = false) : Unused c s := by
  obtain ⟨_, _, waiting, counting⟩ := h
  refine ⟨fun hc => ?_, fun j hj voided e => ?_⟩
  · rw [waiting c hc] at off
    cases off
  · rw [← e, counting j hj voided] at off
    cases off

/-- A channel's record may be replaced by a safe one that is enabled, or whose channel is unused. -/
theorem State.ChannelsSafe.setTemp {s : State} (h : s.ChannelsSafe) {c : TempId} {v : TempChannel} (hv : v.Safe)
    (use : v.cfg.enabled = true ∨ Unused c s) : (setTempRecord c v s).ChannelsSafe := by
  obtain ⟨temps, powers, waiting, counting⟩ := h
  refine ⟨fun c' => ?_, powers, fun c' hc' => ?_, fun j hj voided => ?_⟩
  · rw [setTempRecord_temps, PerTemp.get_set]
    split
    · exact hv
    · exact temps c'
  · rw [setTempRecord_temps, PerTemp.get_set]
    split
    · rename_i e
      exact use.resolve_right fun unused => unused.1 (e ▸ hc')
    · exact waiting c' hc'
  · rw [setTempRecord_temps, PerTemp.get_set]
    split
    · rename_i e
      exact use.resolve_right fun unused => unused.2 j hj voided e
    · exact counting j hj voided

/-- A change of a record reaches the sensing records by the record alone. -/
theorem State.ChannelsSafe.changeTemp {s : State} (h : s.ChannelsSafe) {c : TempId} (v : TempChannel)
    {next : TempChannel} (hv : next.Safe) (use : next.cfg.enabled = true ∨ Unused c s) :
    (changeTemp c v next s).ChannelsSafe :=
  (h.setTemp hv use).of_sensing (changeTemp_evented c v next s).sensing

theorem State.ChannelsSafe.setPower {s : State} (h : s.ChannelsSafe) {n : PowerId} {v : PowerChannel} (hv : v.Safe) :
    (setPowerRecord n v s).ChannelsSafe := by
  obtain ⟨temps, powers, waiting, counting⟩ := h
  refine ⟨temps, fun n' => ?_, waiting, counting⟩
  rw [setPowerRecord_powers, PerPower.get_set]
  split
  · exact hv
  · exact powers n'

/-- Voiding a conversion only frees its channel from having to be enabled (R6). -/
theorem State.ChannelsSafe.voidConversion {s : State} (c : TempId) (h : s.ChannelsSafe) :
    (voidConversion c s).ChannelsSafe := by
  obtain ⟨temps, powers, waiting, counting⟩ := h
  refine ⟨temps, powers, waiting, fun j hj voided => ?_⟩
  obtain ⟨j', hj', e⟩ := Option.map_eq_some_iff.mp hj
  split at e
  · rw [← e] at voided
    cases voided
  · exact e ▸ counting j' hj' (e ▸ voided)

/-- Disabling a channel takes it from the queue and voids its conversion, after which it is unused (R13). -/
theorem unused_of_removed (c : TempId) (s : State) :
    Unused c (voidConversion c { s with queue := s.queue.filter fun q => q != c }) := by
  refine ⟨by simp, fun j hj voided => ?_⟩
  obtain ⟨j', _, e⟩ := Option.map_eq_some_iff.mp hj
  split at e
  · rw [← e] at voided
    cases voided
  · rename_i other
    exact e ▸ other

theorem State.ChannelsSafe.unqueued {s : State} (c : TempId) (h : s.ChannelsSafe) :
    State.ChannelsSafe { s with queue := s.queue.filter fun q => q != c } := by
  obtain ⟨temps, powers, waiting, counting⟩ := h
  exact ⟨temps, powers, fun c' hc' => waiting c' (List.mem_of_mem_filter hc'), counting⟩

/-- An enabled channel may join the queue. -/
theorem State.ChannelsSafe.queued {s : State} {c : TempId} (h : s.ChannelsSafe)
    (on : (s.temps.get c).cfg.enabled = true) : State.ChannelsSafe { s with queue := s.queue ++ [c] } := by
  obtain ⟨temps, powers, waiting, counting⟩ := h
  refine ⟨temps, powers, fun c' hc' => ?_, counting⟩
  rcases List.mem_append.mp hc' with old | new
  · exact waiting c' old
  · rw [List.mem_singleton.mp new]
    exact on

theorem State.ChannelsSafe.idle {s : State} (h : s.ChannelsSafe) : State.ChannelsSafe { s with converter := none } := by
  obtain ⟨temps, powers, waiting, _⟩ := h
  exact ⟨temps, powers, waiting, fun _ hj => by cases hj⟩

/-- The conversion that begins is that of a channel that waited, which is enabled (R5). -/
theorem State.ChannelsSafe.startConversion {s : State} (h : s.ChannelsSafe) : (startConversion s).ChannelsSafe := by
  cases hs : s.converter with
  | some j => rwa [startConversion_busy s j hs]
  | none =>
    rw [startConversion_eq]
    split
    · rename_i c rest _ hq
      obtain ⟨temps, powers, waiting, _⟩ := h
      rw [hq] at waiting
      refine ⟨temps, powers, fun c' hc' => waiting c' (List.mem_cons_of_mem c hc'), fun j hj _ => ?_⟩
      cases hj
      exact waiting c List.mem_cons_self
    · exact h

/-- A request of an enabled channel is an overrun, or joins the queue (R4). -/
theorem State.ChannelsSafe.requestConversion {s : State} {c : TempId} (h : s.ChannelsSafe)
    (on : (s.temps.get c).cfg.enabled = true) : (requestConversion c s).ChannelsSafe := by
  unfold Machine.requestConversion
  split
  · exact h.of_sensing (occur_logged _ _ _ _).evented.sensing
  · exact (h.queued on).startConversion

/-- The outcome of a conversion reaches a channel that is enabled (R8, R9). -/
theorem State.ChannelsSafe.handleOutcome {s : State} (h : s.ChannelsSafe) (j : Conversion) (result : RawResult)
    (on : (s.temps.get j.channel).cfg.enabled = true) : (handleOutcome j result s).ChannelsSafe := by
  have safe := h.temp j.channel
  unfold Machine.handleOutcome
  dsimp only
  split
  · exact h.changeTemp _ (safe.good on _ _ _) (.inl on)
  · exact h.changeTemp _ (safe.bad _) (.inl on)

/-- SET_CHANNEL's four cases: the channel stays off, is switched on (R12) or off (R13), or is changed while on (R14). -/
theorem State.ChannelsSafe.configureChannel {s : State} (h : s.ChannelsSafe) (c : TempId) (cfg : ChannelConfig) :
    (configureChannel c cfg s).ChannelsSafe := by
  have safe := h.temp c
  unfold Machine.configureChannel
  dsimp only
  split
  · exact h
  · split
    · rename_i was is
      exact h.setTemp (safe.configured cfg _ (is.trans was.symm) (by rw [safe.timer_runs, was, is]))
        (.inr (h.unused was))
    · rename_i was is
      exact h.setTemp (TempChannel.emptied_safe _ _ _ _ (by simp [is]) (by simp [is])) (.inl is)
    · rename_i was is
      exact ((h.unqueued c).voidConversion c).changeTemp _
        (TempChannel.emptied_safe _ _ _ _ (by simp [is]) (by simp [is])) (.inr (unused_of_removed c s))
    · rename_i was is
      refine (h.voidConversion c).changeTemp _ ?_ (.inl is)
      split
      · exact safe.configured cfg _ (is.trans was.symm) (by simp [is])
      · exact TempChannel.emptied_safe _ _ _ _ (by simp [is]) (by simp [is])

theorem State.ChannelsSafe.ownSetChannel {s : State} (h : s.ChannelsSafe) (r : ChannelRequest) :
    (ownSetChannel r s).1.ChannelsSafe := by
  unfold Machine.ownSetChannel
  split
  · exact h
  · dsimp only
    split
    · exact h
    · split
      · exact h
      · exact h.configureChannel _ _

/-- SET_POWER_CHANNEL changes the channel's record, and for PM3 may have the arbiter recompute (R20). -/
theorem State.ChannelsSafe.configurePower {s : State} (h : s.ChannelsSafe) (n : PowerId)
    (interval holdCount failValue : Nat) : (configurePower n interval holdCount failValue s).ChannelsSafe := by
  have stored : ∀ timer, (setPowerRecord n
      { s.powers.get n with interval := interval, holdCount := holdCount, timer := timer } s).ChannelsSafe :=
    fun _ => h.setPower ((h.power n).configured _ _ _)
  unfold Machine.configurePower
  dsimp only
  split
  · exact (stored _).of_sensing ((restChange_evented _ _).sensing.trans rfl)
  all_goals exact stored _

theorem State.ChannelsSafe.ownSetPowerChannel {s : State} (h : s.ChannelsSafe) (r : PowerChannelRequest) :
    (ownSetPowerChannel r s).1.ChannelsSafe := by
  unfold Machine.ownSetPowerChannel
  split
  · exact h
  · split
    · exact h
    · exact h.configurePower _ _ _ _

theorem channelsSafe_reset : State.reset.ChannelsSafe := by
  refine ⟨fun c => ?_, fun n => ?_, fun _ hc => ?_, fun _ hj => ?_⟩
  · cases c <;> simp [State.reset, resetTemp, PerTemp.get, TempChannel.Safe]
  · cases n <;> simp [State.reset, resetPower, PerPower.get, PowerChannel.Safe]
  · cases hc
  · cases hj

/-! ## The sensing unit's commands -/

/-- Waiting for a timer leaves every channel's configuration. -/
theorem await_cfg (w : Timer) (s : State) (c : TempId) : ((await w s).temps.get c).cfg = (s.temps.get c).cfg := by
  unfold await
  split
  · rfl
  · rw [elapse_temps, PerTemp.get_map]

/-- At its expiry the timer restarts, and the channel, which is enabled, requests a conversion (R2, R4). -/
theorem intervalTimerExpiry_keepsChannels (c : TempId) (s t : State) (h : s.ChannelsSafe)
    (e : execIntervalTimerExpiry c s = .next t) : t.ChannelsSafe := by
  refine outsideReset_keeps _ _ s t h ?_ e
  split
  · exact h
  · rename_i w hw
    have due := channelsSafe_property.await w h
    have on : ((await w s).temps.get c).cfg.enabled = true :=
      (congrArg _ (await_cfg w s c)).trans ((h.temp c).enabled_of_timer hw)
    refine State.ChannelsSafe.requestConversion (due.setTemp ?_ (.inl on)) (by simpa using on)
    exact (due.temp c).configured _ _ rfl on.symm

/-- At the end of a conversion that counts, the outcome reaches its channel, and the next head begins (R5, R8, R9). -/
theorem conversionEnd_keepsChannels (result : RawResult) (s t : State) (h : s.ChannelsSafe)
    (e : execConversionEnd result s = .next t) : t.ChannelsSafe := by
  refine outsideReset_keeps _ _ s t h ?_ e
  split
  · exact h
  · rename_i j hj
    have ended := (channelsSafe_property.await j.timer h).idle
    refine State.ChannelsSafe.startConversion ?_
    split
    · exact ended
    · rename_i counts
      have on := h.counts hj (by simpa using counts)
      exact ended.handleOutcome j result ((congrArg _ (await_cfg _ s _)).trans on)

/-- An arrival changes its channel's record; what it delivers goes to other blocks (R15 to R17). -/
theorem sampleArrival_keepsChannels (n : PowerId) (sample : Option Nat) (s t : State) (h : s.ChannelsSafe)
    (e : execSampleArrival n sample s = .next t) : t.ChannelsSafe := by
  refine outsideReset_keeps _ _ s t h ?_ e
  have due := channelsSafe_property.await (s.powers.get n).timer h
  exact (due.setPower (((due.power n).after sample).configured _ _ _)).of_sensing
    ((sensing_of_watchOnly (deliver_watchOnly _ _ _ _)).trans (reportPower_evented _ _ _ _).sensing)

/-- A request keeps the channels safe where its owner does. -/
theorem request_keepsChannels {α : Type} {kind : Kind} {call : Call} {shape : List Byte → Option α}
    {owner : α → State → State × Reply} {body : List Byte} {s t : State} (h : s.ChannelsSafe)
    (own : ∀ r, (owner r s).1.ChannelsSafe)
    (e : atPort call (fun port => takeRequest kind port shape owner body) s = .next t) : t.ChannelsSafe :=
  atPort_keeps _ call _ s t h
    (takeRequest_keeps _ (fun _ _ h => h) kind call.port shape owner body s h fun _ r _ _ => own r) e

/-- Every command keeps the channels safe: the sensing unit's own change them by the rules above, and RESET gives them
their reset values. -/
theorem exec_keepsChannels (i : Instr) (s t : State) (h : s.ChannelsSafe) (e : exec i s = .next t) :
    t.ChannelsSafe := by
  cases hi : reachesSensing i with
  | false => exact exec_keeps_sensing channelsSafe_property i s t hi h e
  | true =>
    cases i <;> simp only [exec] at e
    case reset edge pins lines => cases edge <;> cases e <;> exact channelsSafe_reset
    case intervalTimerExpiry c => exact intervalTimerExpiry_keepsChannels c s t h e
    case conversionEnd result => exact conversionEnd_keepsChannels result s t h e
    case sampleArrival n sample => exact sampleArrival_keepsChannels n sample s t h e
    case setChannel call body => exact request_keepsChannels h h.ownSetChannel e
    case setPowerChannel call body => exact request_keepsChannels h h.ownSetPowerChannel e
    all_goals simp [reachesSensing] at hi

/-- What time and every command keep, every step keeps. -/
theorem step_keeps {P : State → Prop} (pending : ∀ s l, P s → P { s with pending := l })
    (time : ∀ s, P s → P (elapse 1 s)) (command : ∀ i s t, P s → exec i s = .next t → P t) (s t : State)
    (h : P s) (e : step s = .next t) : P t := by
  unfold step at e
  split at e
  · exact outsideReset_keeps P (elapse 1) s t h (time s h) e
  · exact command _ _ t (pending s _ h) e

/-- Settles O51: the queue is safe under every change that commands make, the channels under every command. -/
theorem everyStepKeepsQueueAndChannels : Obligations.EveryStepKeepsQueueAndChannels := by
  intro s t queue channels e
  exact ⟨step_keeps (fun _ _ h => h) (fun _ h => h.elapse 1) (exec_keeps queueSafe_kept) s t queue e,
    step_keeps (fun _ _ h => h) (fun _ h => h.elapse 1) exec_keepsChannels s t channels e⟩

end Sys2Proof.Machine

/-! # Conversion requests (R2, R4, R5) -/

namespace Sys2Proof.Machine

open Sys2Proof

/-- An expiry of an interval timer that is due restarts the timer and requests a conversion (R2). -/
theorem intervalTimerExpiry_due (c : TempId) (w : Timer) (s : State) (running : s.inReset = false)
    (hw : (s.temps.get c).timer = some w) (due : w.due = true) :
    exec (.intervalTimerExpiry c) s = .next (requestConversion c (setTempRecord c
      { s.temps.get c with timer := some (Timer.start (s.temps.get c).cfg.interval) } s)) := by
  simp only [exec, execIntervalTimerExpiry, outsideReset_running _ s running, hw, await_of_due w s due]

/-- A request overruns exactly while its channel waits or is being converted (R4). -/
theorem overruns_iff (c : TempId) (s : State) :
    (s.queue.contains c || converting c s) = true ↔ c ∈ s.queue ∨ ∃ j, s.converter = some j ∧ j.channel = c := by
  rw [Bool.or_eq_true, List.contains_iff_mem]
  cases hs : s.converter <;> simp [converting, hs]

/-- With the converter busy with another channel, a request joins the tail (R4). -/
theorem requestConversion_waits (c : TempId) (s : State) (j : Conversion) (hq : c ∉ s.queue)
    (hj : s.converter = some j) (other : j.channel ≠ c) :
    requestConversion c s = { s with queue := s.queue ++ [c] } := by
  have free : (s.queue.contains c || converting c s) = false := by
    rw [← Bool.not_eq_true, overruns_iff]
    rintro (waits | ⟨j', hj', e⟩)
    · exact hq waits
    · rw [hj] at hj'
      cases hj'
      exact other e
  rw [requestConversion_joins c s free]
  exact startConversion_busy _ j hj

/-- With the converter idle and none waiting, the requested conversion begins at once (R5). -/
theorem requestConversion_begins (c : TempId) (s : State) (hn : s.converter = none) (hq : s.queue = []) :
    requestConversion c s =
      { s with
        converter := some
          { channel := c, kind := (s.temps.get c).cfg.kind, offset := (s.temps.get c).cfg.offset, voided := false
            timer := Timer.start (conversionTime (s.temps.get c).cfg.kind) } } := by
  have free : (s.queue.contains c || converting c s) = false := by simp [converting, hn, hq]
  rw [requestConversion_joins c s free, startConversion_eq]
  simp only [hn, hq, List.nil_append]

/-- Settles O14: the three outcomes of the request that a due expiry makes. -/
theorem intervalExpiryRequestsAConversion : Obligations.IntervalExpiryRequestsAConversion := by
  intro c w s running safe hw due v e r
  have requested : e = .next (requestConversion c r) := intervalTimerExpiry_due c w s running hw due
  refine ⟨fun busy => ?_, fun j hq hj other => ?_, fun hn => ?_⟩
  · rw [requested, requestConversion_overrun c r ((overruns_iff c r).mpr busy)]
  · rw [requested, requestConversion_waits c r j hq hj other]
  · obtain ⟨_, _, idle⟩ := (queueSafe_iff s).mp safe
    have kept : (r.temps.get c).cfg = v.cfg := by simp [r]
    rw [requested, requestConversion_begins c r hn (idle hn), kept]
    rfl

end Sys2Proof.Machine

/-! # Notices: what raising a kind adds, and the kinds that consequences of a column switch raise (R156, R158) -/

namespace Sys2Proof.Machine

open Sys2Proof

/-! ## Raising a kind -/

theorem NoticeKind.position_inj (k k' : NoticeKind) : k.position = k'.position ↔ k = k' := by
  cases k <;> cases k' <;> decide

theorem NoticeKind.position_lt (k : NoticeKind) : k.position < 13 := by
  cases k <;> decide

/-- A set that is one kind's own has that kind only. -/
theorem NoticeSet.has_bit (k k' : NoticeKind) : NoticeSet.has k'.bit k = decide (k' = k) := by
  simp [NoticeSet.has, NoticeKind.bit, BitVec.getLsbD_twoPow, k'.position_lt, k'.position_inj]

/-- Raising adds the raised kind to what is pending, and nothing else (R158). -/
theorem NoticePort.has_raise (k k' : NoticeKind) (n : NoticePort) :
    (n.raise k').pending.has k = (n.pending.has k || decide (k' = k)) := by
  rw [← NoticeSet.has_bit]
  exact BitVec.getLsbD_or

/-- On which ports a kind is pending. -/
def State.pendingOn (k : NoticeKind) (s : State) : PerPort Bool := s.notices.map fun n => n.pending.has k

@[simp] theorem pendingOn_get (k : NoticeKind) (p : Port) (s : State) :
    (s.pendingOn k).get p = (s.notices.get p).pending.has k := PerPort.get_map _ _ _

/-- A raised kind is pending on both ports. -/
theorem raised_raise (k : NoticeKind) (s : State) : Raised k (raise k s) := fun p => by
  simp [NoticePort.has_raise]

/-- A raise leaves the other kinds as they are. -/
theorem raise_pendingOn_of_ne {k k' : NoticeKind} (h : k' ≠ k) (s : State) :
    (raise k' s).pendingOn k = s.pendingOn k :=
  PerPort.ext_get _ _ fun p => by simp [NoticePort.has_raise, h]

theorem Raised.of_pendingOn {k : NoticeKind} {s t : State} (h : Raised k s) (e : t.pendingOn k = s.pendingOn k) :
    Raised k t := fun p => by
  rw [← pendingOn_get, e, pendingOn_get]
  exact h p

/-! ## Derivations of lines -/

/-- A comparison raises nothing (R137 to R139). -/
theorem compareLine_pendingOn (k : NoticeKind) (l : LineId) (e : Comparison) (s : State) :
    (compareLine l e s).pendingOn k = s.pendingOn k := by
  unfold compareLine
  dsimp only
  split
  · split <;> rfl
  · split <;> rfl

theorem deriveLine_pendingOn (k : NoticeKind) (fresh : Bool) (l : LineId) (s : State) :
    (deriveLine fresh l s).pendingOn k = s.pendingOn k := by
  unfold deriveLine
  dsimp only
  split
  · exact compareLine_pendingOn _ _ _ _
  · rfl

/-! ## The kinds that a column switch and the end of an event can raise -/

/-- The notice kinds of limits, zones, lines and log. -/
def consequenceKinds : List NoticeKind := [.grant, .burst, .ladder, .trip, .fault, .throttle]

section

variable {k : NoticeKind} (hk : k ∉ consequenceKinds)

include hk

/-- A kind that is none of the consequences' is left by a raise of one that is. -/
theorem raise_consequence_pendingOn {k' : NoticeKind} (h : k' ∈ consequenceKinds) (s : State) :
    (raise k' s).pendingOn k = s.pendingOn k :=
  raise_pendingOn_of_ne (ne_of_mem_of_not_mem h hk) s

/-! ### Resolver and arbiter -/

/-- A resolution raises GRANT only (R117). -/
theorem resolve_pendingOn (d : DomainId) (s : State) : (resolve d s).pendingOn k = s.pendingOn k := by
  have changed : ∀ g, (raise .grant { s with grants := g }).pendingOn k = s.pendingOn k := fun g =>
    raise_consequence_pendingOn hk (by decide) _
  unfold resolve
  dsimp only
  split
  · rfl
  · split
    · exact (startSettle_same (State.pendingOn k) (fun _ _ => rfl) d _).trans (changed _)
    · exact changed _

theorem offerShareIfChanged_pendingOn (before : PerDomain (Option Nat)) (d : DomainId) (s : State) :
    (offerShareIfChanged before d s).pendingOn k = s.pendingOn k := by
  unfold offerShareIfChanged
  split
  · rfl
  · exact resolve_pendingOn hk d _

theorem recomputeShares_pendingOn (s : State) : (recomputeShares s).pendingOn k = s.pendingOn k := by
  unfold recomputeShares
  dsimp only
  iterate 3 rw [offerShareIfChanged_pendingOn hk]
  rfl

/-! ### Accounts and thermal percent -/

/-- The end of an event at an account raises BURST, and what its offers raise (R82, R83). -/
theorem settleAccount_pendingOn (d : DomainId) (next : Account) (s : State) :
    (settleAccount d next s).pendingOn k = s.pendingOn k := by
  have raised : ∀ c : Prop, [Decidable c] → ∀ t : State,
      (if c then t else raise .burst t).pendingOn k = t.pendingOn k := by
    intro c _ t
    split
    · rfl
    · exact raise_consequence_pendingOn hk (by decide) t
  have offered : ∀ t, (offerAllowance d t).pendingOn k = t.pendingOn k := by
    refine inAnyOrder_same (State.pendingOn k) (fun _ _ => rfl) _ ?_
    simp only [List.mem_cons, List.not_mem_nil, or_false]
    rintro f (rfl | rfl) t
    · exact recomputeShares_pendingOn hk t
    · exact resolve_pendingOn hk d _
  unfold settleAccount
  dsimp only
  split
  · exact raised _ _
  · exact (offered _).trans (raised _ _)

theorem recomputeThermalOf_pendingOn (d : DomainId) (s : State) :
    (recomputeThermalOf d s).pendingOn k = s.pendingOn k := by
  unfold recomputeThermalOf
  dsimp only
  split
  · rfl
  · refine (inAnyOrder_same (State.pendingOn k) (fun _ _ => rfl) _ ?_ _).trans rfl
    simp only [List.mem_cons, List.not_mem_nil, or_false]
    rintro f (rfl | rfl) t
    · exact settleAccount_pendingOn hk d _ t
    · exact resolve_pendingOn hk d _

theorem recomputeThermal_pendingOn (s : State) : (recomputeThermal s).pendingOn k = s.pendingOn k := by
  refine inAnyOrder_same (State.pendingOn k) (fun _ _ => rfl) _ ?_ s
  simp only [List.mem_cons, List.not_mem_nil, or_false]
  rintro f (rfl | rfl | rfl) t <;> exact recomputeThermalOf_pendingOn hk _ t

/-! ### Zones -/

/-- An occurrence raises FAULT at most (R144). -/
theorem occur_pendingOn (kind : FaultKind) (n : Nat) (v : Option Int) (s : State) :
    (occur kind n v s).pendingOn k = s.pendingOn k := by
  cases h : logHolds s.faults kind n with
  | true =>
    rw [occur_again kind n v s h]
    rfl
  | false =>
    rw [occur_first kind n v s h]
    exact raise_consequence_pendingOn hk (by decide) _

/-- A trip check raises TRIP and FAULT only (R61, R62). -/
theorem tripCheck_pendingOn (z : ZoneId) (s : State) : (tripCheck z s).pendingOn k = s.pendingOn k := by
  have trip : ∀ t, (raise .trip t).pendingOn k = t.pendingOn k := raise_consequence_pendingOn hk (by decide)
  unfold tripCheck
  dsimp only
  split
  · rfl
  · split
    · split
      · exact (trip _).trans (occur_pendingOn hk _ _ _ _)
      · rfl
    · split
      · exact trip _
      · rfl
    · rfl
    · rfl

/-- A jump up raises LADDER only (R64). -/
theorem ladderUp_pendingOn (z : ZoneId) (s : State) : (ladderUp z s).pendingOn k = s.pendingOn k := by
  unfold ladderUp
  dsimp only
  split
  · rfl
  · split
    · exact raise_consequence_pendingOn hk (by decide) _
    · rfl

theorem zoneSwitch_pendingOn (z : ZoneId) (s : State) : (zoneSwitch z s).pendingOn k = s.pendingOn k := by
  unfold zoneSwitch
  split
  · exact (ladderUp_pendingOn hk z _).trans (tripCheck_pendingOn hk z s)
  · rfl

theorem zonesSwitch_pendingOn (s : State) : (zonesSwitch s).pendingOn k = s.pendingOn k := by
  refine (recomputeThermal_pendingOn hk _).trans (inAnyOrder_same (State.pendingOn k) (fun _ _ => rfl) _ ?_ s)
  simp only [List.mem_cons, List.not_mem_nil, or_false]
  rintro f (rfl | rfl | rfl | rfl) t <;> exact zoneSwitch_pendingOn hk _ t

/-! ### Column and the end of an event -/

theorem announceSwitch_pendingOn (s : State) : (announceSwitch s).pendingOn k = s.pendingOn k := by
  refine inAnyOrder_same (State.pendingOn k) (fun _ _ => rfl) _ ?_ s
  simp only [List.mem_cons, List.not_mem_nil, or_false]
  rintro f (rfl | rfl | rfl | rfl | rfl) t
  · exact zonesSwitch_pendingOn hk t
  · exact settleAccount_pendingOn hk _ _ t
  · exact settleAccount_pendingOn hk _ _ t
  · exact settleAccount_pendingOn hk _ _ t
  · exact recomputeShares_pendingOn hk t

theorem deriveColumn_pendingOn (s : State) : (deriveColumn s).pendingOn k = s.pendingOn k := by
  unfold deriveColumn
  dsimp only
  split
  · rfl
  · exact announceSwitch_pendingOn hk _

/-- The end of an event raises THROTTLE only (R133). -/
theorem endEvent_pendingOn (s : State) : (endEvent s).pendingOn k = s.pendingOn k := by
  unfold endEvent endEventWith
  dsimp only
  split
  · simp only [deriveLine_pendingOn]
  · rw [raise_consequence_pendingOn hk (by decide)]
    simp only [deriveLine_pendingOn]

/-! ### Effective posture -/

/-- A derivation of the effective posture raises POSTURE, and what a column switch raises (R32). -/
theorem deriveEffective_pendingOn (other : k ≠ .posture) (s : State) :
    (deriveEffective s).pendingOn k = s.pendingOn k := by
  unfold deriveEffective
  dsimp only
  split
  · rfl
  · exact (deriveColumn_pendingOn hk _).trans (raise_pendingOn_of_ne other.symm _)

end

/-- A changed effective posture raises POSTURE (R32). -/
theorem deriveEffective_raises (s : State) (h : (deriveEffective s).effective ≠ s.effective) :
    Raised .posture (deriveEffective s) := by
  rw [deriveEffective_effective] at h
  unfold deriveEffective
  rw [if_neg h]
  exact (raised_raise .posture _).of_pendingOn (deriveColumn_pendingOn (by decide) _)

theorem deriveEffective_caps (s : State) : (deriveEffective s).caps = s.caps := by
  unfold deriveEffective deriveColumn
  dsimp only
  split
  · rfl
  · split
    · rfl
    · exact (announceSwitch_switched _).same State.caps fun _ => rfl

end Sys2Proof.Machine

/-! # POSTURE_HINT (R32 to R35) -/

namespace Sys2Proof.Machine

open Sys2Proof

/-! ## The slot's content replaced -/

/-- What the slot already holds changes nothing (R35). -/
theorem placeHint_same (s : State) : placeHint s.hint s = s := if_pos rfl

/-- Another content of the slot is stored, and the effective posture follows (R32, R35). -/
theorem placeHint_changed {hint : Option Hint} {s : State} (h : hint ≠ s.hint) :
    placeHint hint s = endEvent (deriveEffective { s with hint := hint }) := if_neg h

/-- A value that the end of an event does not reach is, after another content of the slot, what the derivation of the
effective posture leaves. -/
theorem placeHint_field {α : Type} (f : State → α) (blind : ∀ u : State, f u.withoutEnd = f u) {hint : Option Hint}
    {s : State} (h : hint ≠ s.hint) : f (placeHint hint s) = f (deriveEffective { s with hint := hint }) := by
  rw [placeHint_changed h]
  exact (endEvent_ended _).same f blind

@[simp] theorem placeHint_hint (hint : Option Hint) (s : State) : (placeHint hint s).hint = hint := by
  by_cases h : hint = s.hint
  · rw [h, placeHint_same]
  · rw [placeHint_field State.hint (fun _ => rfl) h, deriveEffective_hint]

@[simp] theorem placeHint_mode (hint : Option Hint) (s : State) : (placeHint hint s).mode = s.mode := by
  by_cases h : hint = s.hint
  · rw [h, placeHint_same]
  · rw [placeHint_field State.mode (fun _ => rfl) h, deriveEffective_mode]

@[simp] theorem placeHint_caps (hint : Option Hint) (s : State) : (placeHint hint s).caps = s.caps := by
  by_cases h : hint = s.hint
  · rw [h, placeHint_same]
  · rw [placeHint_field State.caps (fun _ => rfl) h, deriveEffective_caps]

/-- With another content of the slot the effective posture is that hint, or the committed posture (R32). -/
theorem placeHint_effective {hint : Option Hint} {s : State} (h : hint ≠ s.hint) :
    (placeHint hint s).effective = effectiveOf hint s.committed := by
  rw [placeHint_field State.effective (fun _ => rfl) h, deriveEffective_effective]

/-- A request at the slot raises POSTURE where the effective posture changes (R32). -/
theorem placeHint_raises (hint : Option Hint) (s : State) (changed : (placeHint hint s).effective ≠ s.effective) :
    Raised .posture (placeHint hint s) := by
  by_cases h : hint = s.hint
  · rw [h, placeHint_same] at changed
    exact absurd rfl changed
  · rw [placeHint_field State.effective (fun _ => rfl) h] at changed
    rw [placeHint_changed h]
    exact (deriveEffective_raises _ changed).of_pendingOn (endEvent_pendingOn (by decide) _)

/-- A request at the slot raises no HINT_DROPPED (R35). -/
theorem placeHint_keepsHintDropped (hint : Option Hint) (s : State) :
    (placeHint hint s).pendingOn .hintDropped = s.pendingOn .hintDropped := by
  by_cases h : hint = s.hint
  · rw [h, placeHint_same]
  · rw [placeHint_changed h, endEvent_pendingOn (by decide), deriveEffective_pendingOn (by decide) (by decide)]
    rfl

/-! ## Checks and owner -/

theorem heldFromPlatform_iff (hint : Option Hint) :
    heldFromPlatform hint = true ↔ ∃ h, hint = some h ∧ h.origin = .platform := by
  cases hint <;> simp [heldFromPlatform]

/-- The order DESK < LAP < BAG, in which UNSETTLED has no place (R29, R34). -/
theorem lessRestrictive_iff (h : Place) (committed : Posture) :
    h.lessRestrictive committed = true ↔
      (h = .desk ∧ (committed = .lap ∨ committed = .bag)) ∨ (h = .lap ∧ committed = .bag) := by
  cases h <;> cases committed <;> decide

theorem hintCodeOf_undefined (n : Nat) (h : 3 < n) (h' : n ≠ 255) : hintCodeOf n = none := by
  unfold hintCodeOf
  split
  case h_6 => rfl
  all_goals omega

theorem hintCodeOf_place (h : Place) : hintCodeOf (BitVec.ofNat 8 h.posture.code).toNat = some (.place h) := by
  cases h <;> rfl

/-- An empty request is refused to Port S while a Port P hint is held, and otherwise empties the slot (R33 to R35). -/
theorem ownPostureHint_noHint (port : Port) (s : State) :
    ownPostureHint port .noHint s =
      if port = .system ∧ heldFromPlatform s.hint = true then (s, .bare .denied)
      else (placeHint none s, .bare .ok) := by
  cases port <;> simp [ownPostureHint]

/-- A place is refused to Port S while a Port P hint is held and where it is less restrictive than the committed
posture, and otherwise fills the slot (R33 to R35). -/
theorem ownPostureHint_place (port : Port) (h : Place) (s : State) :
    ownPostureHint port (.place h) s =
      if (port = .system ∧ heldFromPlatform s.hint = true) ∨
          (port = .system ∧ h.lessRestrictive s.committed = true) then
        (s, .bare .denied)
      else (placeHint (some ⟨h, port⟩) s, .bare .ok) := by
  cases port with
  | platform => simp [ownPostureHint]
  | system => cases hp : heldFromPlatform s.hint <;> simp [ownPostureHint, hp]

/-! ## The request -/

/-- The catalogue admits Port P in either mode, and Port S in ACTIVE. -/
theorem admitted_postureHint (port : Port) (s : State) (h : port = .platform ∨ s.mode = .active) :
    Admitted .postureHint port s := by
  rcases h with rfl | h
  · exact ⟨rfl, rfl⟩
  · cases port <;> simp [Admitted, portListed, modeAllows, modeNamed, h]

/-- A request with one body byte comes to the checks of its kind. -/
theorem postureHint_checked (port : Port) (code : Byte) (s : State) (running : s.inReset = false) :
    exec (.postureHint (s.call port) [code]) s =
      .next (checkRequest .postureHint port shapePostureHint (ownPostureHint port) [code] s) := by
  simp only [exec, execPostureHint, atPort_call _ _ _ running]
  rw [takeRequest_frame _ _ _ _ _ _ (by simp)]

/-- Port S is answered STATE in SAFE (check 4 of R169). -/
theorem postureHint_inSafe (code : Byte) (s : State) (running : s.inReset = false) (safe : s.mode = .safe) :
    exec (.postureHint (s.call .system) [code]) s = .next (place .system [0xB2, 0x01, 0x05, 0x48] s) := by
  rw [postureHint_checked _ _ _ running, checkRequest_state _ _ _ _ _ _ rfl (by rw [safe]; rfl)]
  rfl

/-- An undefined code is answered INVALID (check 5 of R169). -/
theorem postureHint_undefined {port : Port} {code : Byte} {s : State} (running : s.inReset = false)
    (admitted : Admitted .postureHint port s) (h : hintCodeOf code.toNat = none) :
    exec (.postureHint (s.call port) [code]) s = .next (place port [0xB2, 0x01, 0x06, 0x47] s) := by
  rw [postureHint_checked _ _ _ running, checkRequest_invalid _ _ _ _ _ _ admitted h]
  rfl

/-- A hint of UNSETTLED is answered INVALID by the owner (R34). -/
theorem postureHint_unsettled {port : Port} {s : State} (running : s.inReset = false)
    (admitted : Admitted .postureHint port s) :
    exec (.postureHint (s.call port) [0]) s = .next (place port [0xB2, 0x01, 0x06, 0x47] s) := by
  rw [postureHint_checked _ _ _ running, checkRequest_taken _ _ _ _ _ _ HintCode.unsettled admitted rfl]
  rfl

/-- A defined code is the owner's, here one that refuses it: DENIED. -/
theorem postureHint_refused {port : Port} {code : Byte} {s : State} {r : HintCode} (running : s.inReset = false)
    (admitted : Admitted .postureHint port s) (h : hintCodeOf code.toNat = some r)
    (own : ownPostureHint port r s = (s, .bare .denied)) :
    exec (.postureHint (s.call port) [code]) s = .next (place port [0xB2, 0x01, 0x04, 0x49] s) := by
  rw [postureHint_checked _ _ _ running, checkRequest_taken _ _ _ _ _ _ r admitted h, own]
  rfl

/-- A defined code is the owner's, here one that takes it: OK. -/
theorem postureHint_taken {port : Port} {code : Byte} {s t : State} {r : HintCode} (running : s.inReset = false)
    (admitted : Admitted .postureHint port s) (h : hintCodeOf code.toNat = some r)
    (own : ownPostureHint port r s = (t, .bare .ok)) :
    exec (.postureHint (s.call port) [code]) s = .next (place port [0xB2, 0x01, 0x00, 0x4D] t) := by
  rw [postureHint_checked _ _ _ running, checkRequest_taken _ _ _ _ _ _ r admitted h, own]
  rfl

/-- Settles O25: the checks in their order, and what the slot's new content brings about. -/
theorem postureHintFillsOrEmptiesTheSlot : Obligations.PostureHintFillsOrEmptiesTheSlot := by
  intro port code s running e barred denied fills
  have filled : ∀ hint, e = .next (place port [0xB2, 0x01, 0x00, 0x4D] (placeHint hint s)) → fills hint :=
    fun hint taken =>
      ⟨placeHint hint s, taken, placeHint_hint hint s, fun same => same ▸ placeHint_same s, placeHint_effective,
        placeHint_raises hint s,
        fun p => by rw [← pendingOn_get, placeHint_keepsHintDropped, pendingOn_get],
        placeHint_mode hint s, placeHint_caps hint s, placeHint_evented hint s⟩
  have barred_iff : barred ↔ port = .system ∧ heldFromPlatform s.hint = true :=
    and_congr_right fun _ => (heldFromPlatform_iff s.hint).symm
  refine ⟨fun hp safe => ?_, fun admits => ?_⟩
  · subst hp
    exact postureHint_inSafe code s running safe
  · have admitted := admitted_postureHint port s admits
    refine ⟨fun invalid => ?_, fun hc => ?_, fun h hc => ?_⟩
    · rcases invalid with rfl | ⟨high, full⟩
      · exact postureHint_unsettled running admitted
      · have undefined := hintCodeOf_undefined code.toNat high fun n => full (BitVec.eq_of_toNat_eq n)
        exact postureHint_undefined running admitted undefined
    · subst hc
      refine ⟨fun refused => ?_, fun free => filled none ?_⟩
      · exact postureHint_refused running admitted (r := .noHint) rfl
          (by rw [ownPostureHint_noHint, if_pos (barred_iff.mp refused)])
      · exact postureHint_taken running admitted (r := .noHint) rfl
          (by rw [ownPostureHint_noHint, if_neg (mt barred_iff.mpr free)])
    · subst hc
      intro below
      have below_iff : below ↔ port = .system ∧ h.lessRestrictive s.committed = true :=
        and_congr_right fun _ => (lessRestrictive_iff h s.committed).symm
      have checks : barred ∨ below ↔ _ := or_congr barred_iff below_iff
      refine ⟨fun refused => ?_, fun free notBelow => filled _ ?_⟩
      · exact postureHint_refused running admitted (hintCodeOf_place h)
          (by rw [ownPostureHint_place, if_pos (checks.mp refused)])
      · exact postureHint_taken running admitted (hintCodeOf_place h)
          (by rw [ownPostureHint_place, if_neg (mt checks.mpr (not_or.mpr ⟨free, notBelow⟩))])

end Sys2Proof.Machine

/-! # Zone re-selection: trip check, jump up and thermal percents (R61, R64, R66, R68) -/

namespace Sys2Proof.Machine

open Sys2Proof

/-! ## The record of a zone that is checked again -/

/-- The state of a zone after the trip check against a skin limit (R61). -/
def Zone.checkedState (v : Zone) (limit estimate : Int) : ZoneState :=
  let point := tripPoint limit v.cfg.tripMargin
  if v.state = .active ∧ point ≤ estimate then .tripped
  else if v.state = .tripped ∧ estimate < point - v.cfg.hysteresis then .active
  else v.state

/-- A zone after the trip check against a skin limit (R61). -/
def Zone.tripChecked (v : Zone) (limit estimate : Int) : Zone := { v with state := v.checkedState limit estimate }

/-- A zone after the jump up (R64). -/
def Zone.jumped (v : Zone) (limit estimate : Int) : Zone :=
  let top := ladderTop limit estimate v.ladder
  if v.position < top then { v with position := top, held := 0, percent := percentAt v.ladder top } else v

/-- A zone after trip check and jump up, one without an estimate as it was (R66). -/
def Zone.recheck (v : Zone) (limit : Int) : Zone :=
  match v.estimate with
  | none => v
  | some estimate => (v.tripChecked limit estimate).jumped limit estimate

theorem Zone.tripChecked_of_same {v : Zone} {limit estimate : Int} (h : v.checkedState limit estimate = v.state) :
    v.tripChecked limit estimate = v := by
  rw [Zone.tripChecked, h]

/-- At most one position is the highest step entered. -/
theorem IsTop.unique {ladder : List LadderStep} {limit estimate : Int} {a b : Nat} (ha : IsTop ladder limit estimate a)
    (hb : IsTop ladder limit estimate b) : a = b := by
  have le : ∀ {a b}, IsTop ladder limit estimate a → IsTop ladder limit estimate b → a ≤ b := by
    rintro a b ⟨-, zero | ⟨step, found, entered⟩⟩ ⟨above, -⟩
    · omega
    · have := above _ step found entered
      omega
  exact le_antisymm (le ha hb) (le hb ha)

theorem percentAt_of_pos (ladder : List LadderStep) {position : Nat} (h : 0 < position) :
    percentAt ladder position = (ladder[position - 1]?.map (·.percent)).getD 100 := by
  obtain ⟨k, rfl⟩ := Nat.exists_eq_succ_of_ne_zero h.ne'
  simp only [percentAt, stepAt, Nat.succ_sub_one]
  cases ladder[k]? <;> rfl

/-- The record after trip check and jump up is the one that R61 and R66 ask for. -/
theorem Zone.rechecked_recheck (v : Zone) (limit : Int) : Rechecked v limit (v.recheck limit) := by
  intro estimate top known isTop point state
  obtain rfl := isTop.unique (ladderTop_isTop limit estimate v.ladder)
  simp only [Zone.recheck, known, Zone.jumped, Zone.tripChecked]
  split
  · rename_i above
    rw [percentAt_of_pos _ (Nat.zero_lt_of_lt above)]
    rfl
  · rfl

/-! ## What trip check, jump up and re-selection store -/

/-- Of two records stored for a zone the second stays. -/
theorem perZone_set_set {α : Type} (zones : PerZone α) (z : ZoneId) (v w : α) :
    (zones.set z v).set z w = zones.set z w := by
  cases z <;> rfl

/-- A trip check stores the checked record, and leaves the other zones (R61). -/
theorem tripCheck_zones {z : ZoneId} {s : State} {estimate : Int} (known : (s.zones.get z).estimate = some estimate) :
    (tripCheck z s).zones = s.zones.set z ((s.zones.get z).tripChecked (skinLimit z s) estimate) := by
  have unchanged : ∀ {limit}, (s.zones.get z).checkedState limit estimate = (s.zones.get z).state →
      s.zones = s.zones.set z ((s.zones.get z).tripChecked limit estimate) := fun same => by
    rw [Zone.tripChecked_of_same same, PerZone.set_get_self]
  have occurred : ∀ kind n value t, (occur kind n value t).zones = t.zones := fun kind n value t =>
    (occur_logged kind n value t).same State.zones fun _ => rfl
  unfold tripCheck
  dsimp only
  split
  case h_1 unknown => cases unknown.symm.trans known
  case h_2 e found =>
    obtain rfl : e = estimate := Option.some.inj (found.symm.trans known)
    split
    case h_1 active =>
      split
      · rename_i reached
        simp [occurred, Zone.tripChecked, Zone.checkedState, active, reached]
      · rename_i below
        exact unchanged (by simp [Zone.checkedState, active, below])
    case h_2 tripped =>
      split
      · rename_i below
        simp [Zone.tripChecked, Zone.checkedState, tripped, below]
      · rename_i above
        exact unchanged (by simp [Zone.checkedState, tripped, above])
    case h_3 off => exact unchanged (by simp [Zone.checkedState, off])
    case h_4 starting => exact unchanged (by simp [Zone.checkedState, starting])

/-- A jump up stores the jumped record, and leaves the other zones (R64). -/
theorem ladderUp_zones {z : ZoneId} {s : State} {estimate : Int} (known : (s.zones.get z).estimate = some estimate) :
    (ladderUp z s).zones = s.zones.set z ((s.zones.get z).jumped (skinLimit z s) estimate) := by
  unfold ladderUp Zone.jumped
  dsimp only
  split
  case h_1 unknown => cases unknown.symm.trans known
  case h_2 e found =>
    obtain rfl : e = estimate := Option.some.inj (found.symm.trans known)
    split
    · rfl
    · exact (PerZone.set_get_self _ _).symm

/-- A counting zone makes trip check and jump up at a re-selection, and the other zones are left (R66). -/
theorem zoneSwitch_zones_of_counts {z : ZoneId} {s : State} (counts : (s.zones.get z).counts = true) :
    (zoneSwitch z s).zones = s.zones.set z ((s.zones.get z).recheck (skinLimit z s)) := by
  rw [zoneSwitch, if_pos counts]
  cases known : (s.zones.get z).estimate with
  | none => simp [tripCheck, ladderUp, Zone.recheck, known]
  | some estimate =>
    have checked := tripCheck_zones known
    have limit : skinLimit z (tripCheck z s) = skinLimit z s :=
      (tripCheck_switched z s).same (skinLimit z) fun _ => rfl
    have stillKnown : ((tripCheck z s).zones.get z).estimate = some estimate := by
      rw [checked, PerZone.get_set_self]
      exact known
    rw [ladderUp_zones stillKnown, limit, checked, PerZone.get_set_self]
    simp only [Zone.recheck, known, perZone_set_set]

/-- An OFF or STARTING zone makes no check at a re-selection (R66). -/
theorem zoneSwitch_of_not_counts {z : ZoneId} {s : State} (h : (s.zones.get z).counts = false) :
    zoneSwitch z s = s := by
  simp [zoneSwitch, h]

/-- The thermal percents are recomputed from the zones, which stay (R68). -/
theorem recomputeThermal_zones (s : State) : (recomputeThermal s).zones = s.zones :=
  (recomputeThermal_limited s).same State.zones fun _ => rfl

/-! ## The thermal percent as a least (R68) -/

theorem Zone.percentFor_of_toward {d : DomainId} {v : Zone} (h : v.counts = true ∧ v.cfg.influence.get d = true) :
    v.percentFor d = v.percent := by
  simp [Zone.percentFor, h]

theorem Zone.percentFor_of_not_toward {d : DomainId} {v : Zone}
    (h : ¬(v.counts = true ∧ v.cfg.influence.get d = true)) : v.percentFor d = 100 := by
  rw [Zone.percentFor, if_neg (by simpa using h)]

theorem thermalPercent_le (zones : PerZone Zone) (d : DomainId) :
    thermalPercent zones d ≤ 100 ∧ ∀ z, thermalPercent zones d ≤ (zones.get z).percentFor d := by
  simp only [ZoneId.forall_iff, PerZone.get, thermalPercent]
  omega

theorem thermalPercent_attained (zones : PerZone Zone) (d : DomainId) :
    thermalPercent zones d = 100 ∨ ∃ z, thermalPercent zones d = (zones.get z).percentFor d := by
  simp only [ZoneId.exists_iff, PerZone.get, thermalPercent]
  omega

theorem leastPercent_thermalPercent (zones : PerZone Zone) (d : DomainId) :
    LeastPercent zones d (thermalPercent zones d) := by
  obtain ⟨bound, least⟩ := thermalPercent_le zones d
  refine ⟨bound, fun z toward => Zone.percentFor_of_toward toward ▸ least z, ?_⟩
  rcases thermalPercent_attained zones d with full | ⟨z, attained⟩
  · exact .inl full
  · by_cases toward : (zones.get z).counts = true ∧ (zones.get z).cfg.influence.get d = true
    · exact .inr ⟨z, toward, attained.trans (Zone.percentFor_of_toward toward)⟩
    · exact .inl (attained.trans (Zone.percentFor_of_not_toward toward))

end Sys2Proof.Machine

/-! # SET_SKIN_LIMITS (R50, R51) -/

namespace Sys2Proof.Machine

open Sys2Proof

/-! ## Limits stored -/

theorem limitsValid_iff (limits : PerColumn Int) : limitsValid limits = true ↔ ∀ c, InRange (limits.get c) := by
  simp [limitsValid, Column.forall_iff, InRange, PerColumn.get, and_assoc]

section

variable {z : ZoneId} {limits : PerColumn Int} {s : State}

/-- With the limit of the column in use as it was, the limits are stored and nothing else happens (R51). -/
theorem storeLimits_unchanged (h : limits.get s.column = (s.skin.get z).get s.column) :
    storeLimits z limits s = { s with skin := s.skin.set z limits } := if_pos h

/-- With another limit in the column in use, a re-selection follows (R51). -/
theorem storeLimits_changed (h : limits.get s.column ≠ (s.skin.get z).get s.column) :
    storeLimits z limits s = endEvent (reselectZone z { s with skin := s.skin.set z limits }) := if_neg h

/-- The zones after a changed limit are those that the re-selection leaves. -/
theorem storeLimits_zones (h : limits.get s.column ≠ (s.skin.get z).get s.column) :
    (storeLimits z limits s).zones = (zoneSwitch z { s with skin := s.skin.set z limits }).zones := by
  rw [storeLimits_changed h]
  exact ((endEvent_ended _).same State.zones fun _ => rfl).trans (recomputeThermal_zones _)

theorem storeLimits_zones_of_not_counts (h : limits.get s.column ≠ (s.skin.get z).get s.column)
    (idle : (s.zones.get z).counts = false) : (storeLimits z limits s).zones = s.zones := by
  have kept := zoneSwitch_of_not_counts (s := { s with skin := s.skin.set z limits }) idle
  rw [storeLimits_zones h, kept]

/-- A counting zone is checked against the new limit of the column in use, and the other zones are left (R66). -/
theorem storeLimits_zones_of_counts (h : limits.get s.column ≠ (s.skin.get z).get s.column)
    (counts : (s.zones.get z).counts = true) :
    (storeLimits z limits s).zones = s.zones.set z ((s.zones.get z).recheck (limits.get s.column)) := by
  have switched := zoneSwitch_zones_of_counts (s := { s with skin := s.skin.set z limits }) counts
  rw [skinLimit, PerZone.get_set_self] at switched
  exact (storeLimits_zones h).trans switched

/-- The thermal percents after a changed limit are the least of the zones' (R68). -/
theorem storeLimits_thermal (h : limits.get s.column ≠ (s.skin.get z).get s.column) (d : DomainId) :
    LeastPercent (storeLimits z limits s).zones d ((storeLimits z limits s).thermal.get d) := by
  have percent : (storeLimits z limits s).thermal.get d = thermalPercent (storeLimits z limits s).zones d := by
    rw [storeLimits_zones h, ← recomputeThermal_thermal, storeLimits_changed h]
    exact (endEvent_ended _).same (fun u => u.thermal.get d) fun _ => rfl
  exact percent ▸ leastPercent_thermalPercent _ d

end

theorem storeLimits_skin (z : ZoneId) (limits : PerColumn Int) (s : State) :
    (storeLimits z limits s).skin = s.skin.set z limits :=
  (storeLimits_evented z limits s).same State.skin fun _ => rfl

/-- Beside the limits stored, what a column switch and the end of an event write is written. -/
theorem storeLimits_withoutUpdate (z : ZoneId) (limits : PerColumn Int) (s : State) :
    (storeLimits z limits s).withoutUpdate = { s with skin := s.skin.set z limits }.withoutUpdate := by
  by_cases h : limits.get s.column = (s.skin.get z).get s.column
  · rw [storeLimits_unchanged h]
  · rw [storeLimits_changed h]
    exact ((endEvent_ended _).same State.withoutUpdate fun _ => rfl).trans
      ((reselectZone_switched z _).same State.withoutUpdate fun _ => rfl)

theorem storeLimits_frame (z : ZoneId) (limits : PerColumn Int) (s : State) :
    { storeLimits z limits s with skin := s.skin }.withoutUpdate = s.withoutUpdate :=
  same_of_erased State.withoutUpdate (fun u => { u with skin := s.skin }.withoutUpdate) (fun _ => rfl)
    (storeLimits_withoutUpdate z limits s)

/-! ## The request -/

/-- A request of Port P with the kind's shape is its owner's. -/
theorem setSkinLimits_checked {body : List Byte} {r : SkinRequest} {s : State} (running : s.inReset = false)
    (shape : shapeSetSkinLimits body = some r) :
    exec (.setSkinLimits (s.call .platform) body) s =
      .next (answer .platform .setSkinLimits (ownSetSkinLimits r s).2 (ownSetSkinLimits r s).1) := by
  have short : body.length ≤ 60 := by
    unfold shapeSetSkinLimits at shape
    split at shape
    · omega
    · cases shape
  simp only [exec, execSetSkinLimits, atPort_call _ _ _ running]
  rw [takeRequest_frame _ _ _ _ _ _ short, checkRequest_taken _ _ _ _ _ _ r ⟨rfl, rfl⟩ shape]

/-- The owner of a request for a zone that exists takes it exactly with every limit in range (R50). -/
theorem ownSetSkinLimits_zone (z : ZoneId) (limits : PerColumn Int) (s : State) :
    ownSetSkinLimits ⟨z.number, limits⟩ s =
      if limitsValid limits then (storeLimits z limits s, .bare .ok) else (s, .bare .invalid) := by
  simp [ownSetSkinLimits]

/-- Settles O30: INVALID and OK by R50, and after OK the limits stored and the zone selected again. -/
theorem setSkinLimitsStoresTheLimits : Obligations.SetSkinLimitsStoresTheLimits := by
  intro body z limits s running shape x v limit
  have answered := setSkinLimits_checked running shape
  rw [ownSetSkinLimits_zone] at answered
  refine ⟨fun ⟨c, outside⟩ => ?_, fun inRange => ?_⟩
  · have invalid : ¬limitsValid limits = true := fun valid => outside ((limitsValid_iff limits).mp valid c)
    rw [if_neg invalid] at answered
    exact answered
  · rw [if_pos ((limitsValid_iff limits).mpr inRange)] at answered
    refine ⟨storeLimits z limits s, answered, storeLimits_skin z limits s, storeLimits_unchanged,
      fun changed => ⟨storeLimits_zones_of_not_counts changed, fun counts => ?_, storeLimits_thermal changed⟩,
      storeLimits_frame z limits s⟩
    have zones := storeLimits_zones_of_counts changed counts
    rw [zones, PerZone.get_set_self]
    exact ⟨v.rechecked_recheck limit, rfl⟩

end Sys2Proof.Machine

/-! # What the consequences of an event keep of zones, flags and thermal percents (R54, R60, R63, R68) -/

namespace Sys2Proof.Machine

open Sys2Proof

/-! ## The parts of zone safety -/

/-- Every zone's record is safe (R54, R55, R64, R65). -/
def State.RecordsSafe (s : State) : Prop := ∀ z, (s.zones.get z).Safe

/-- The state of each temperature channel. -/
def State.channelState (s : State) : TempId → ChannelState := fun c => (s.temps.get c).state

/-- A zone's degraded and blind flags follow these channel states (R60, R63). -/
def Zone.Follows (v : Zone) (state : TempId → ChannelState) : Prop :=
  v.degraded = degradedBy v.cfg state ∧ v.blind = blindBy v.cfg state

/-- A zone's flags follow its sources as they stand. -/
def State.FlagsFollow (s : State) (z : ZoneId) : Prop := (s.zones.get z).Follows s.channelState

/-- Each thermal percent is the least of its zones' (R68). -/
def State.PercentsLeast (s : State) : Prop := ∀ d, s.thermal.get d = thermalPercent s.zones d

theorem zonesSafe_iff (s : State) : s.ZonesSafe ↔ s.RecordsSafe ∧ (∀ z, s.FlagsFollow z) ∧ s.PercentsLeast :=
  ⟨fun ⟨zones, percents⟩ => ⟨fun z => (zones z).1, fun z => (zones z).2, percents⟩,
    fun ⟨records, flags, percents⟩ => ⟨fun z => ⟨records z, flags z⟩, percents⟩⟩

theorem State.ZonesSafe.record {s : State} (h : s.ZonesSafe) (z : ZoneId) : (s.zones.get z).Safe := by
  obtain ⟨records, _⟩ := (zonesSafe_iff s).mp h
  exact records z

/-- The flags look at which channels are FAILED only. -/
theorem Zone.Follows.congr {v : Zone} {f g : TempId → ChannelState} (h : v.Follows f)
    (failed : ∀ c, g c = .failed ↔ f c = .failed) : v.Follows g := by
  have same : ∀ c, (g c == .failed) = (f c == .failed) := fun c => Bool.eq_iff_iff.mpr (by simpa using failed c)
  simpa only [Zone.Follows, degradedBy, blindBy, same] using h

/-! ## The relations -/

/-- w comes from v by a change that leaves configuration and flags, and a safe record safe. -/
structure Zone.Kept (v w : Zone) : Prop where
  cfg : w.cfg = v.cfg
  degraded : w.degraded = v.degraded
  blind : w.blind = v.blind
  safe : v.Safe → w.Safe

theorem Zone.Kept.refl (v : Zone) : v.Kept v := ⟨rfl, rfl, rfl, id⟩

theorem Zone.Kept.trans {v w x : Zone} (h : v.Kept w) (h' : w.Kept x) : v.Kept x :=
  ⟨h'.cfg.trans h.cfg, h'.degraded.trans h.degraded, h'.blind.trans h.blind, h'.safe ∘ h.safe⟩

/-- t comes from s by changes that keep every zone's record, and by which no channel enters or leaves FAILED. -/
structure RecordsKept (s t : State) : Prop where
  failed : ∀ c, t.channelState c = .failed ↔ s.channelState c = .failed
  zones : ∀ z, (s.zones.get z).Kept (t.zones.get z)

theorem RecordsKept.refl (s : State) : RecordsKept s s := ⟨fun _ => Iff.rfl, fun _ => .refl _⟩

theorem RecordsKept.trans {s t u : State} (h : RecordsKept s t) (h' : RecordsKept t u) : RecordsKept s u :=
  ⟨fun c => (h'.failed c).trans (h.failed c), fun z => (h.zones z).trans (h'.zones z)⟩

theorem RecordsKept.records {s t : State} (h : RecordsKept s t) (safe : s.RecordsSafe) : t.RecordsSafe :=
  fun z => (h.zones z).safe (safe z)

theorem RecordsKept.follows {s t : State} (h : RecordsKept s t) {z : ZoneId} (flags : s.FlagsFollow z) :
    t.FlagsFollow z := by
  obtain ⟨degraded, blind⟩ := Zone.Follows.congr flags h.failed
  have kept := h.zones z
  exact ⟨by rw [kept.degraded, kept.cfg, degraded], by rw [kept.blind, kept.cfg, blind]⟩

/-- Such changes that also leave each thermal percent the least of its zones'. -/
structure ZonesKept (s t : State) : Prop extends RecordsKept s t where
  percents : s.PercentsLeast → t.PercentsLeast

theorem ZonesKept.refl (s : State) : ZonesKept s s := ⟨.refl s, id⟩

theorem ZonesKept.trans {s t u : State} (h : ZonesKept s t) (h' : ZonesKept t u) : ZonesKept s u :=
  ⟨h.toRecordsKept.trans h'.toRecordsKept, h'.percents ∘ h.percents⟩

theorem ZonesKept.zonesSafe {s t : State} (h : ZonesKept s t) (safe : s.ZonesSafe) : t.ZonesSafe := by
  obtain ⟨records, flags, percents⟩ := (zonesSafe_iff s).mp safe
  exact (zonesSafe_iff t).mpr ⟨h.records records, fun z => h.follows (flags z), h.percents percents⟩

/-- What writes no channel record, zone or thermal percent keeps them. -/
theorem ZonesKept.of_eq {s t : State} (temps : t.temps = s.temps) (zones : t.zones = s.zones)
    (thermal : t.thermal = s.thermal) : ZonesKept s t where
  failed c := by simp only [State.channelState, temps]
  zones z := zones ▸ .refl _
  percents h d := by rw [thermal, zones, h d]

/-- Changes of other fields come before. -/
theorem ZonesKept.after {s t u : State} (h : ZonesKept t u) (temps : t.temps = s.temps) (zones : t.zones = s.zones)
    (thermal : t.thermal = s.thermal) : ZonesKept s u :=
  .trans (.of_eq temps zones thermal) h

theorem RecordsKept.inAnyOrder (todo : List (State → State)) (each : ∀ f ∈ todo, ∀ s, RecordsKept s (f s))
    (s : State) : RecordsKept s (inAnyOrder todo s) :=
  inAnyOrder_keeps (RecordsKept s) (fun _ _ h => h.trans ⟨fun _ => Iff.rfl, fun _ => .refl _⟩) todo
    (fun f hf t h => h.trans (each f hf t)) s (.refl s)

theorem ZonesKept.inAnyOrder (todo : List (State → State)) (each : ∀ f ∈ todo, ∀ s, ZonesKept s (f s)) (s : State) :
    ZonesKept s (inAnyOrder todo s) :=
  inAnyOrder_keeps (ZonesKept s) (fun _ _ h => h.trans (.of_eq rfl rfl rfl)) todo
    (fun f hf t h => h.trans (each f hf t)) s (.refl s)

theorem Logged.zonesKept {s t : State} (h : Logged s t) : ZonesKept s t :=
  .of_eq (h.same State.temps fun _ => rfl) (h.same State.zones fun _ => rfl) (h.same State.thermal fun _ => rfl)

theorem Offered.zonesKept {s t : State} (h : Offered s t) : ZonesKept s t :=
  .of_eq (h.same State.temps fun _ => rfl) (h.same State.zones fun _ => rfl) (h.same State.thermal fun _ => rfl)

theorem Ended.zonesKept {s t : State} (h : Ended s t) : ZonesKept s t :=
  .of_eq (h.same State.temps fun _ => rfl) (h.same State.zones fun _ => rfl) (h.same State.thermal fun _ => rfl)

/-- The limit chain keeps zones where it leaves the thermal percents. -/
theorem Limited.zonesKept {s t : State} (h : Limited s t) (thermal : t.thermal = s.thermal) : ZonesKept s t :=
  .of_eq (h.same State.temps fun _ => rfl) (h.same State.zones fun _ => rfl) thermal

/-- The end of an event follows (R131 to R133). -/
theorem ZonesKept.ended {s t : State} (h : ZonesKept s t) : ZonesKept s (endEvent t) :=
  h.trans (endEvent_ended t).zonesKept

/-- After the recomputation the percents are the least of the zones' (R68). -/
theorem recomputeThermal_percentsLeast (s : State) : (recomputeThermal s).PercentsLeast := fun d => by
  rw [recomputeThermal_thermal, recomputeThermal_zones]

/-- The thermal percents are recomputed after the records have changed (R68). -/
theorem RecordsKept.recomputed {s t : State} (h : RecordsKept s t) : ZonesKept s (recomputeThermal t) where
  failed c := by
    rw [← h.failed c, State.channelState, (recomputeThermal_limited t).same State.temps fun _ => rfl]
    rfl
  zones z := recomputeThermal_zones t ▸ h.zones z
  percents _ := recomputeThermal_percentsLeast t

/-- A zone's record is replaced by one that is kept. -/
theorem RecordsKept.of_set {z : ZoneId} {w : Zone} {s t : State} (h : (s.zones.get z).Kept w)
    (zones : t.zones = s.zones.set z w) (temps : t.temps = s.temps) : RecordsKept s t where
  failed c := by simp only [State.channelState, temps]
  zones z' := by
    rw [zones, PerZone.get_set]
    split
    · rename_i e
      exact e ▸ h
    · exact .refl _

/-- A record that gives the same percents leaves each thermal percent the least (R68). -/
theorem State.PercentsLeast.setZoneRecord {z : ZoneId} {w : Zone} {s : State} (h : s.PercentsLeast)
    (same : ∀ d, w.percentFor d = (s.zones.get z).percentFor d) : (setZoneRecord z w s).PercentsLeast := fun d => by
  rw [setZoneRecord_thermal, h d, setZoneRecord_zones]
  have same := same d
  cases z <;> simp only [thermalPercent, PerZone.set, PerZone.get] at same ⊢ <;> rw [same]

/-- The passing of time moves timers on only. -/
theorem elapse_zonesKept (n : Nat) (s : State) : ZonesKept s (elapse n s) where
  failed c := by simp [State.channelState]
  zones z := by
    rw [elapse_zones, PerZone.get_map]
    refine ⟨rfl, rfl, rfl, fun ⟨state, runs, rest⟩ => ⟨state, ?_, rest⟩⟩
    simpa using runs
  percents h := h

theorem await_zonesKept (w : Timer) (s : State) : ZonesKept s (await w s) := by
  unfold await
  split
  · exact .refl s
  · exact elapse_zonesKept _ s

/-! ## The record of a zone: trip check, ladder and update -/

theorem Zone.counts_iff (v : Zone) : v.counts = true ↔ v.state = .active ∨ v.state = .tripped := by
  cases h : v.state <;> simp [Zone.counts, h]

/-- The zones with an estimate are those that count (R54). -/
theorem Zone.Safe.counts_of_known {v : Zone} (h : v.Safe) {estimate : Int} (known : v.estimate = some estimate) :
    v.counts = true := by
  obtain ⟨_, _, estimated, _⟩ := h
  rw [← estimated, known]
  rfl

/-- The trip check leaves a counting zone ACTIVE or TRIPPED (R61). -/
theorem Zone.checkedState_counts {v : Zone} (h : v.counts = true) (limit estimate : Int) :
    v.checkedState limit estimate = .active ∨ v.checkedState limit estimate = .tripped := by
  unfold Zone.checkedState
  dsimp only
  split
  · exact .inr rfl
  · split
    · exact .inl rfl
    · exact v.counts_iff.mp h

/-- A counting zone may become ACTIVE or TRIPPED with an estimate (R58, R59, R61). -/
theorem Zone.Safe.counting {v : Zone} (h : v.Safe) (on : v.state ≠ .off) (estimate : Int) {state : ZoneState}
    (counts : state = .active ∨ state = .tripped) :
    Zone.Safe { v with estimate := some estimate, state := state } := by
  obtain ⟨off, runs, _, _, rest⟩ := h
  have enabled : ¬v.cfg.enabled = false := fun e => on (off.mpr e)
  rcases counts with rfl | rfl <;> exact ⟨by simpa using enabled, runs, rfl, fun idle => (by cases idle), rest⟩

theorem Zone.kept_tripChecked {v : Zone} {estimate : Int} (known : v.estimate = some estimate) (limit : Int) :
    v.Kept (v.tripChecked limit estimate) := by
  refine ⟨rfl, rfl, rfl, fun safe => ?_⟩
  have counts := safe.counts_of_known known
  have on : v.state ≠ .off := fun e => by simp [Zone.counts, e] at counts
  have checked := safe.counting on estimate (Zone.checkedState_counts counts limit estimate)
  rwa [← known] at checked

/-- A counting zone may stand at any position of its ladder, with the percent of that position (R64, R65). -/
theorem Zone.Safe.moved {v : Zone} (h : v.Safe) (counts : v.counts = true) {position held : Nat}
    (onLadder : position ≤ v.ladder.length) (bounded : held ≤ 15) :
    Zone.Safe { v with position := position, held := held, percent := percentAt v.ladder position } := by
  obtain ⟨off, runs, estimated, _⟩ := h
  refine ⟨off, runs, estimated, fun idle => ?_, onLadder, rfl, bounded⟩
  cases counts.symm.trans idle

/-- The highest step entered is one of the ladder's. -/
theorem ladderTop_le (limit estimate : Int) (ladder : List LadderStep) :
    ladderTop limit estimate ladder ≤ ladder.length := by
  rcases (ladderTop_isTop limit estimate ladder).2 with none | ⟨step, found, _⟩
  · omega
  · have := (List.getElem?_eq_some_iff.mp found).1
    omega

theorem Zone.kept_jumped {v : Zone} {estimate : Int} (known : v.estimate = some estimate) (limit : Int) :
    v.Kept (v.jumped limit estimate) := by
  unfold Zone.jumped
  dsimp only
  split
  · exact ⟨rfl, rfl, rfl, fun safe =>
      safe.moved (safe.counts_of_known known) (ladderTop_le limit estimate v.ladder) (Nat.zero_le _)⟩
  · exact .refl v

/-- A re-selection keeps the record (R66). -/
theorem Zone.kept_recheck (v : Zone) (limit : Int) : v.Kept (v.recheck limit) := by
  unfold Zone.recheck
  split
  · exact .refl v
  · rename_i estimate known
    exact (v.kept_tripChecked known limit).trans (Zone.kept_jumped (v := v.tripChecked limit estimate) known limit)

/-- A zone after the ladder of one update: the jump up, else one step down, else held counted on (R64). -/
def Zone.laddered (v : Zone) (limit estimate : Int) : Zone :=
  if v.position < ladderTop limit estimate v.ladder then v.jumped limit estimate
  else if mayDescend limit estimate v then
    { v with position := v.position - 1, held := 0, percent := percentAt v.ladder (v.position - 1) }
  else { v with held := min 15 (v.held + 1) }

/-- The ladder of one update stores the laddered record, and leaves the other zones (R64). -/
theorem ladderUpdate_zones {z : ZoneId} {s : State} {estimate : Int} (known : (s.zones.get z).estimate = some estimate) :
    (ladderUpdate z s).zones = s.zones.set z ((s.zones.get z).laddered (skinLimit z s) estimate) := by
  unfold ladderUpdate Zone.laddered
  dsimp only
  split
  case h_1 unknown => cases unknown.symm.trans known
  case h_2 e found =>
    obtain rfl : e = estimate := Option.some.inj (found.symm.trans known)
    split
    · exact ladderUp_zones known
    · split <;> rfl

theorem Zone.kept_laddered {v : Zone} {estimate : Int} (known : v.estimate = some estimate) (limit : Int) :
    v.Kept (v.laddered limit estimate) := by
  unfold Zone.laddered
  split
  · exact Zone.kept_jumped known limit
  · split
    · refine ⟨rfl, rfl, rfl, fun safe => safe.moved (safe.counts_of_known known) ?_ (Nat.zero_le _)⟩
      obtain ⟨_, _, _, _, onLadder, _⟩ := safe
      omega
    · refine ⟨rfl, rfl, rfl, fun safe => ?_⟩
      have counts := safe.counts_of_known known
      have ⟨_, _, _, _, onLadder, percent, _⟩ := safe
      have counted := safe.moved counts onLadder (min_le_left 15 (v.held + 1))
      rwa [← percent] at counted

/-- An update gives a zone that is not OFF an estimate, and leaves it counting (R58, R59). -/
theorem Zone.estimated_cases {v : Zone} (on : v.state ≠ .off) (raw : Int) :
    ∃ estimate state, v.estimated raw = { v with estimate := some estimate, state := state } ∧
      (state = .active ∨ state = .tripped) := by
  unfold Zone.estimated
  split
  · exact ⟨_, _, rfl, .inl rfl⟩
  · rename_i active
    exact ⟨_, .active, by rw [← active], .inl rfl⟩
  · rename_i tripped
    exact ⟨_, .tripped, by rw [← tripped], .inr rfl⟩
  · rename_i off
    exact absurd off on

/-! ## Zones -/

theorem zoneSwitch_recordsKept (z : ZoneId) (s : State) : RecordsKept s (zoneSwitch z s) := by
  cases counts : (s.zones.get z).counts with
  | false => rw [zoneSwitch_of_not_counts counts]; exact .refl s
  | true =>
    exact .of_set ((s.zones.get z).kept_recheck (skinLimit z s)) (zoneSwitch_zones_of_counts counts)
      ((zoneSwitch_switched z s).same State.temps fun _ => rfl)

theorem zonesSwitch_zonesKept (s : State) : ZonesKept s (zonesSwitch s) := by
  refine (RecordsKept.inAnyOrder _ ?_ s).recomputed
  simp only [List.mem_cons, List.not_mem_nil, or_false]
  rintro f (rfl | rfl | rfl | rfl) t <;> exact zoneSwitch_recordsKept _ t

theorem reselectZone_zonesKept (z : ZoneId) (s : State) : ZonesKept s (reselectZone z s) :=
  (zoneSwitch_recordsKept z s).recomputed

/-- The trip check and the ladder of an update keep the record of a zone with an estimate (R56). -/
theorem checked_recordsKept {z : ZoneId} {s : State} {estimate : Int}
    (known : (s.zones.get z).estimate = some estimate) (first : Prop) [Decidable first] :
    RecordsKept s (if first then ladderUp z (tripCheck z s) else ladderUpdate z (tripCheck z s)) := by
  have checked : RecordsKept s (tripCheck z s) :=
    .of_set (Zone.kept_tripChecked known _) (tripCheck_zones known)
      ((tripCheck_switched z s).same State.temps fun _ => rfl)
  have stillKnown : ((tripCheck z s).zones.get z).estimate = some estimate := by
    rw [tripCheck_zones known, PerZone.get_set_self]
    exact known
  refine checked.trans ?_
  split
  · exact .of_set (Zone.kept_jumped stillKnown _) (ladderUp_zones stillKnown)
      ((ladderUp_switched z _).same State.temps fun _ => rfl)
  · exact .of_set (Zone.kept_laddered stillKnown _) (ladderUpdate_zones stillKnown)
      ((ladderUpdate_switched z _).same State.temps fun _ => rfl)

/-- One update of a zone that is not OFF: its estimate, trip check and ladder, and the thermal percents at its end
(R56). -/
theorem updateZone_zonesKept {z : ZoneId} {s : State} (on : (s.zones.get z).state ≠ .off) (sum : Int) :
    ZonesKept s (updateZone z sum s) := by
  obtain ⟨estimate, state, estimated, counts⟩ := Zone.estimated_cases on (rawOf sum)
  have formed : (s.zones.get z).Kept ((s.zones.get z).estimated (rawOf sum)) := by
    rw [estimated]
    exact ⟨rfl, rfl, rfl, fun safe => safe.counting on estimate counts⟩
  have stored : RecordsKept s (setZoneRecord z ((s.zones.get z).estimated (rawOf sum)) s) := .of_set formed rfl rfl
  refine (stored.trans (checked_recordsKept (estimate := estimate) ?_ _)).recomputed
  rw [setZoneRecord_zones, PerZone.get_set_self, estimated]

/-! ## Accounts, arbiter and resolver -/

theorem recomputeShares_zonesKept (s : State) : ZonesKept s (recomputeShares s) := (recomputeShares_offered s).zonesKept

theorem resolve_zonesKept (d : DomainId) (s : State) : ZonesKept s (resolve d s) := (resolve_offered d s).zonesKept

theorem settleAccount_zonesKept (d : DomainId) (next : Account) (s : State) : ZonesKept s (settleAccount d next s) :=
  (settleAccount_limited d next s).zonesKept (settleAccount_thermal d next s)

theorem reselectDomain_zonesKept (d : DomainId) (s : State) : ZonesKept s (reselectDomain d s) := by
  apply ZonesKept.inAnyOrder
  simp only [List.mem_cons, List.not_mem_nil, or_false]
  rintro f (rfl | rfl) t
  · exact settleAccount_zonesKept d _ t
  · exact recomputeShares_zonesKept t

/-- A changed cap is offered to resolver and arbiter (R112, R113). -/
theorem offerCaps_zonesKept (d : DomainId) (s : State) :
    ZonesKept s (inAnyOrder [offerCapsToResolver d, recomputeShares] s) := by
  apply ZonesKept.inAnyOrder
  simp only [List.mem_cons, List.not_mem_nil, or_false]
  rintro f (rfl | rfl) t
  · exact (offerCapsToResolver_offered d t).zonesKept
  · exact recomputeShares_zonesKept t

/-! ## Changes of column, posture and mode -/

theorem announceSwitch_zonesKept (s : State) : ZonesKept s (announceSwitch s) := by
  apply ZonesKept.inAnyOrder
  simp only [List.mem_cons, List.not_mem_nil, or_false]
  rintro f (rfl | rfl | rfl | rfl | rfl) t
  · exact zonesSwitch_zonesKept t
  · exact settleAccount_zonesKept _ _ t
  · exact settleAccount_zonesKept _ _ t
  · exact settleAccount_zonesKept _ _ t
  · exact recomputeShares_zonesKept t

theorem deriveColumn_zonesKept (s : State) : ZonesKept s (deriveColumn s) := by
  unfold deriveColumn
  dsimp only
  split
  · exact .refl s
  · exact (announceSwitch_zonesKept _).after rfl rfl rfl

theorem deriveEffective_zonesKept (s : State) : ZonesKept s (deriveEffective s) := by
  unfold deriveEffective
  dsimp only
  split
  · exact .refl s
  · exact (deriveColumn_zonesKept _).after rfl rfl rfl

theorem clearCapS_zonesKept (d : DomainId) (s : State) : ZonesKept s (clearCapS d s) := by
  unfold clearCapS
  dsimp only
  split
  · exact .refl s
  · exact (offerCaps_zonesKept d _).after rfl rfl rfl

theorem dropSystemHint_zonesKept (s : State) : ZonesKept s (dropSystemHint s) := by
  unfold dropSystemHint
  split
  · exact (deriveEffective_zonesKept _).after rfl rfl rfl
  · exact .refl s

theorem leaveActive_zonesKept (s : State) : ZonesKept s (leaveActive s) := by
  refine (ZonesKept.inAnyOrder _ ?_ _).after rfl rfl rfl
  simp only [List.mem_cons, List.not_mem_nil, or_false]
  rintro f (rfl | rfl | rfl | rfl | rfl) t
  · exact deriveColumn_zonesKept t
  · exact clearCapS_zonesKept _ t
  · exact clearCapS_zonesKept _ t
  · exact clearCapS_zonesKept _ t
  · exact dropSystemHint_zonesKept t

theorem occur_zonesKept (kind : FaultKind) (n : Nat) (value : Option Int) (s : State) :
    ZonesKept s (occur kind n value s) := (occur_logged kind n value s).zonesKept

theorem occurFatal_zonesKept (kind : FaultKind) (n : Nat) (value : Option Int) (s : State) :
    ZonesKept s (occurFatal kind n value s) := by
  cases h : s.mode with
  | safe => rw [occurFatal_safe _ _ _ _ h]; exact occur_zonesKept _ _ _ _
  | active => rw [occurFatal_active _ _ _ _ h]; exact (occur_zonesKept _ _ _ _).trans (leaveActive_zonesKept _)

end Sys2Proof.Machine

/-! # What the commands do to zones, flags and thermal percents (R54, R60, R63, R68, R71 to R74) -/

namespace Sys2Proof.Machine

open Sys2Proof

/-! ## Sources of zones (R10, R60, R63) -/

/-- A zone with its flags as these channel states give them (R60, R63). -/
def Zone.following (v : Zone) (state : TempId → ChannelState) : Zone :=
  { v with degraded := degradedBy v.cfg state, blind := blindBy v.cfg state }

/-- A zone follows its sources by its flags; what else may happen is a fall to SAFE (R60, R63, R153). -/
theorem followSources_zonesKept (z : ZoneId) (s : State) :
    ZonesKept (setZoneRecord z ((s.zones.get z).following s.channelState) s) (followSources z s) := by
  unfold followSources
  dsimp only
  split
  · exact .refl _
  · split
    · exact occurFatal_zonesKept _ _ _ _
    · exact .of_eq rfl rfl rfl

/-- Flags are no matter of record safety and thermal percents. -/
theorem followSources_keeps {z : ZoneId} {s : State} (records : s.RecordsSafe) :
    (followSources z s).RecordsSafe ∧ (s.PercentsLeast → (followSources z s).PercentsLeast) := by
  have kept := followSources_zonesKept z s
  refine ⟨kept.records fun z' => ?_, fun percents => kept.percents (percents.setZoneRecord fun _ => rfl)⟩
  rw [setZoneRecord_zones, PerZone.get_set]
  split
  · exact records z
  · exact records z'

theorem followSources_flagsFollow (z : ZoneId) (s : State) : (followSources z s).FlagsFollow z := by
  refine (followSources_zonesKept z s).follows ?_
  rw [State.FlagsFollow, setZoneRecord_zones, PerZone.get_set_self]
  exact ⟨rfl, rfl⟩

/-- What follows its sources already goes on following them. -/
theorem followSources_keeps_flagsFollow (z : ZoneId) {z' : ZoneId} {s : State} (flags : s.FlagsFollow z') :
    (followSources z s).FlagsFollow z' := by
  by_cases e : z' = z
  · exact e ▸ followSources_flagsFollow z s
  · refine (followSources_zonesKept z s).follows ?_
    rwa [State.FlagsFollow, setZoneRecord_zones, PerZone.get_set_of_ne _ _ _ _ e]

theorem mem_followAll {f : State → State}
    (h : f ∈ [followSources .z0, followSources .z1, followSources .z2, followSources .z3]) :
    ∃ z, f = followSources z := by
  simp only [List.mem_cons, List.not_mem_nil, or_false] at h
  rcases h with rfl | rfl | rfl | rfl <;> exact ⟨_, rfl⟩

/-- Once every zone has followed its sources, all flags follow (R60, R63). -/
theorem followAllSources_zonesSafe {s : State} (records : s.RecordsSafe) (percents : s.PercentsLeast) :
    (followAllSources s).ZonesSafe := by
  have kept : (followAllSources s).RecordsSafe ∧ (followAllSources s).PercentsLeast := by
    refine inAnyOrder_keeps (fun t => t.RecordsSafe ∧ t.PercentsLeast) (fun _ _ h => h) _
      (fun f hf t ⟨safe, least⟩ => ?_) s ⟨records, percents⟩
    obtain ⟨z, rfl⟩ := mem_followAll hf
    exact (followSources_keeps safe).imp_right fun keeps => keeps least
  obtain ⟨safe, least⟩ := kept
  refine (zonesSafe_iff _).mpr ⟨safe, fun z => ?_, least⟩
  refine inAnyOrder_brings (fun t => t.FlagsFollow z) (fun _ => True) (fun _ _ h => h) (fun _ _ _ => trivial) _
    (followSources z) (by cases z <;> simp) (fun t _ => followSources_flagsFollow z t) (fun _ _ _ _ => trivial)
    (fun f hf t _ h => ?_) s trivial
  obtain ⟨z', rfl⟩ := mem_followAll hf
  exact followSources_keeps_flagsFollow z' h

/-- A channel's record is replaced without its entering or leaving FAILED. -/
theorem setTempRecord_zonesKept {c : TempId} {next : TempChannel} {s : State}
    (failed : next.state = .failed ↔ (s.temps.get c).state = .failed) : ZonesKept s (setTempRecord c next s) where
  failed c' := by
    simp only [State.channelState, setTempRecord_temps, PerTemp.get_set]
    split
    · rename_i e
      exact e ▸ failed
    · exact Iff.rfl
  zones _ := .refl _
  percents h := h

/-- A change of a channel's record, followed by all zones where the channel enters or leaves FAILED (R10). -/
theorem changeTemp_zonesSafe {s : State} (h : s.ZonesSafe) (c : TempId) (next : TempChannel) :
    (changeTemp c (s.temps.get c) next s).ZonesSafe := by
  obtain ⟨records, _, percents⟩ := (zonesSafe_iff s).mp h
  by_cases quiet : (s.temps.get c).state = .failed ↔ next.state = .failed
  · rw [changeTemp_quiet _ _ _ _ quiet]
    exact (setTempRecord_zonesKept quiet.symm).zonesSafe h
  · have followed : ∀ t, t.zones = s.zones → t.thermal = s.thermal → (sourcesChanged t).ZonesSafe := by
      intro t zones thermal
      refine (endEvent_ended _).zonesKept.zonesSafe (followAllSources_zonesSafe (fun z => ?_) fun d => ?_)
      · exact zones ▸ records z
      · rw [zones, thermal, percents d]
    unfold changeTemp
    dsimp only
    split
    · have logged := occur_logged .tchFailed c.number (next.firstBad.map fun b => (b.code : Int))
        (setTempRecord c next s)
      exact followed _ (logged.same State.zones fun _ => rfl) (logged.same State.thermal fun _ => rfl)
    · split
      · exact followed _ rfl rfl
      · rename_i entered left
        exact absurd (by tauto) quiet

theorem startConversion_zonesKept (s : State) : ZonesKept s (startConversion s) :=
  .of_eq (startConversion_same State.temps (fun _ _ _ => rfl) s) (startConversion_same State.zones (fun _ _ _ => rfl) s)
    (startConversion_same State.thermal (fun _ _ _ => rfl) s)

theorem requestConversion_zonesKept (c : TempId) (s : State) : ZonesKept s (requestConversion c s) := by
  unfold requestConversion
  split
  · exact occur_zonesKept _ _ _ _
  · exact (startConversion_zonesKept _).after rfl rfl rfl

theorem handleOutcome_zonesSafe {s : State} (h : s.ZonesSafe) (j : Conversion) (result : RawResult) :
    (handleOutcome j result s).ZonesSafe := by
  unfold handleOutcome
  dsimp only
  split <;> exact changeTemp_zonesSafe h _ _

/-- SET_CHANNEL's four cases. A channel that is switched on was DISABLED, so it does not leave FAILED (R12 to R14). -/
theorem configureChannel_zonesSafe {s : State} (h : s.ZonesSafe) {c : TempId} (channel : (s.temps.get c).Safe)
    (cfg : ChannelConfig) : (configureChannel c cfg s).ZonesSafe := by
  unfold configureChannel
  dsimp only
  split
  · exact h
  · split
    · exact (setTempRecord_zonesKept (next := { s.temps.get c with cfg := cfg }) Iff.rfl).zonesSafe h
    · rename_i was _
      obtain ⟨disabled, _⟩ := channel
      exact (setTempRecord_zonesKept (by simp [TempChannel.emptied, disabled.mpr was])).zonesSafe h
    · have removed : (voidConversion c { s with queue := s.queue.filter fun q => q != c }).ZonesSafe := h
      exact changeTemp_zonesSafe removed c _
    · have voided : (voidConversion c s).ZonesSafe := h
      exact changeTemp_zonesSafe voided c _

theorem ownSetChannel_zonesSafe {s : State} (h : s.ZonesSafe) (channels : s.ChannelsSafe) (r : ChannelRequest) :
    (ownSetChannel r s).1.ZonesSafe := by
  unfold ownSetChannel
  split
  · exact h
  · dsimp only
    split
    · exact h
    · split
      · exact h
      · exact configureChannel_zonesSafe h (channels.temp _) _

/-! ## Samples (R15 to R19) -/

theorem judgeDelivery_zonesKept (d : DomainId) (power : Nat) (s : State) : ZonesKept s (judgeDelivery d power s) := by
  unfold judgeDelivery
  dsimp only
  split
  · split
    · exact .refl s
    · split
      · split
        · exact (occur_zonesKept _ _ _ _).after rfl rfl rfl
        · exact .of_eq rfl rfl rfl
      · exact .of_eq rfl rfl rfl
  · split
    · split <;> exact .of_eq rfl rfl rfl
    · exact .of_eq rfl rfl rfl

theorem complianceDelivery_zonesKept (d : DomainId) (q : Quality) (power : Nat) (s : State) :
    ZonesKept s (complianceDelivery d q power s) := by
  cases q
  · exact judgeDelivery_zonesKept d power s
  · exact judgeDelivery_zonesKept d power s
  · unfold complianceDelivery substituteCompliance
    dsimp only
    split <;> exact .of_eq rfl rfl rfl

theorem deliverToDomain_zonesKept (d : DomainId) (v : PowerChannel) (s : State) :
    ZonesKept s (deliverToDomain d v s) := by
  unfold deliverToDomain
  split
  · exact .refl s
  · exact ((complianceDelivery_zonesKept d _ _ s).trans (settleAccount_zonesKept d _ _)).ended

theorem restChange_zonesKept (before : Nat) (s : State) : ZonesKept s (restChange before s) := by
  unfold restChange
  split
  · exact .refl s
  · exact (recomputeShares_zonesKept s).ended

theorem watchDelivery_zonesKept (power : Nat) (s : State) : ZonesKept s (watchDelivery power s) := by
  unfold watchDelivery
  dsimp only
  split
  · exact .of_eq rfl rfl rfl
  · exact .of_eq rfl rfl rfl
  · split <;> exact .of_eq rfl rfl rfl

theorem watchFailure_zonesKept (s : State) : ZonesKept s (watchFailure s) := by
  unfold watchFailure
  split <;> exact .of_eq rfl rfl rfl

theorem deliverToWatch_zonesKept (old : ChannelState) (v : PowerChannel) (s : State) :
    ZonesKept s (deliverToWatch old v s) := by
  unfold deliverToWatch
  split
  · exact (watchDelivery_zonesKept _ s).ended
  · exact (watchDelivery_zonesKept _ s).ended
  · split
    · exact .refl s
    · exact watchFailure_zonesKept s
  · exact .refl s
  · exact .refl s

theorem deliver_zonesKept (n : PowerId) (old v : PowerChannel) (s : State) : ZonesKept s (deliver n old v s) := by
  cases n
  · exact deliverToDomain_zonesKept _ _ _
  · exact deliverToDomain_zonesKept _ _ _
  · exact deliverToDomain_zonesKept _ _ _
  · exact restChange_zonesKept _ _
  · exact deliverToWatch_zonesKept _ _ _

theorem reportPower_zonesKept (n : PowerId) (old new : ChannelState) (s : State) :
    ZonesKept s (reportPower n old new s) := by
  unfold reportPower
  split
  · exact occur_zonesKept _ _ _ _
  · split <;> exact .of_eq rfl rfl rfl

theorem ownSetPowerChannel_zonesKept (r : PowerChannelRequest) (s : State) :
    ZonesKept s (ownSetPowerChannel r s).1 := by
  unfold ownSetPowerChannel
  split
  · exact .refl s
  · split
    · exact .refl s
    · unfold configurePower
      dsimp only
      split
      · exact (restChange_zonesKept _ _).after rfl rfl rfl
      all_goals exact .of_eq rfl rfl rfl

/-! ## Posture (R23 to R38) -/

theorem commit_zonesKept (candidate : Place) (s : State) : ZonesKept s (commit candidate s) := by
  unfold commit
  dsimp only
  split
  · split <;> exact .of_eq rfl rfl rfl
  · exact .of_eq rfl rfl rfl

theorem reclassify_zonesKept (s : State) : ZonesKept s (reclassify s) := by
  unfold reclassify setDwell
  dsimp only
  split
  · exact .refl s
  · split
    · exact .of_eq rfl rfl rfl
    · split
      · exact .of_eq rfl rfl rfl
      · exact (commit_zonesKept _ _).after rfl rfl rfl
      · exact .of_eq rfl rfl rfl

theorem classifierEvent_zonesKept (l : InputId) (edge : Bool) (s : State) :
    ZonesKept s (classifierEvent l edge s) := by
  unfold classifierEvent
  refine ((reclassify_zonesKept _).trans (deriveEffective_zonesKept _)).after ?_ ?_ ?_ <;> split <;> rfl

theorem takeLevel_zonesKept (l : InputId) (asserted : Bool) (s : State) : ZonesKept s (takeLevel l asserted s) := by
  have noticed : ∀ (c : Bool) (k : NoticeKind) (inputs : PerInput InputLine),
      ZonesKept s (if c then raise k { s with inputs := inputs } else { s with inputs := inputs }) := by
    intro c k inputs
    split <;> exact .of_eq rfl rfl rfl
  cases l
  · exact ((noticed _ _ _).trans (classifierEvent_zonesKept _ _ _)).ended
  · refine ((noticed _ _ _).trans (ZonesKept.inAnyOrder _ ?_ _)).ended
    simp only [List.mem_cons, List.not_mem_nil, or_false]
    rintro f (rfl | rfl) t
    · exact classifierEvent_zonesKept _ _ t
    · exact recomputeShares_zonesKept t
  · exact ((noticed _ _ _).trans (classifierEvent_zonesKept _ _ _)).ended
  · exact ((noticed _ _ _).trans (classifierEvent_zonesKept _ _ _)).ended

theorem startDebounce_zonesKept (l : InputId) (asserted : Bool) (s : State) :
    ZonesKept s (startDebounce l asserted s) := by
  unfold startDebounce
  dsimp only
  split
  · exact takeLevel_zonesKept l asserted s
  · exact .of_eq rfl rfl rfl

theorem levelChange_zonesKept (l : InputId) (s : State) : ZonesKept s (levelChange l s) := by
  unfold levelChange
  dsimp only
  split
  · exact .of_eq rfl rfl rfl
  · exact startDebounce_zonesKept _ _ s

theorem ownSetInput_zonesKept (r : InputRequest) (s : State) : ZonesKept s (ownSetInput r s).1 := by
  unfold ownSetInput configureInput
  split
  · exact .refl s
  · dsimp only
    split
    · exact (levelChange_zonesKept _ _).after rfl rfl rfl
    · split
      · split
        · exact (startDebounce_zonesKept _ _ _).after rfl rfl rfl
        · exact .of_eq rfl rfl rfl
      · exact .of_eq rfl rfl rfl

theorem commitCandidate_zonesKept (s : State) : ZonesKept s (commitCandidate s) := by
  unfold commitCandidate
  split
  · exact .of_eq rfl rfl rfl
  · exact ((commit_zonesKept _ s).trans (deriveEffective_zonesKept _)).ended

theorem placeHint_zonesKept (hint : Option Hint) (s : State) : ZonesKept s (placeHint hint s) := by
  unfold placeHint
  split
  · exact .refl s
  · exact (deriveEffective_zonesKept _).ended.after rfl rfl rfl

/-- A hint is refused, or placed in the slot (R32 to R35). -/
theorem ownPostureHint_zonesKept (port : Port) (code : HintCode) (s : State) :
    ZonesKept s (ownPostureHint port code s).1 := by
  cases code with
  | unsettled => exact .refl s
  | noHint =>
    rw [ownPostureHint_noHint]
    split
    · exact .refl s
    · exact placeHint_zonesKept _ s
  | place h =>
    rw [ownPostureHint_place]
    split
    · exact .refl s
    · exact placeHint_zonesKept _ s

/-! ## Domains and supply -/

theorem configureDomain_zonesKept (d : DomainId) (r : DomainRecord) (s : State) :
    ZonesKept s (configureDomain d r s) := by
  have only : ∀ (c : Bool) (f : State → State) t, ZonesKept t (f t) → ZonesKept t (onlyIf c f t) := by
    intro c f t h
    cases c
    · exact .refl t
    · exact h
  unfold configureDomain
  dsimp only
  split
  · exact .refl s
  · refine (ZonesKept.inAnyOrder _ ?_ _).ended.after rfl rfl rfl
    simp only [List.mem_cons, List.not_mem_nil, or_false]
    rintro f (rfl | rfl | rfl | rfl) t
    · exact only _ _ t (settleAccount_zonesKept d _ t)
    · exact only _ _ t (recomputeShares_zonesKept t)
    · exact only _ _ t (resolve_zonesKept d t)
    · exact only _ _ t (.of_eq rfl rfl rfl)

theorem ownSetDomain_zonesKept (r : DomainRequest) (s : State) : ZonesKept s (ownSetDomain r s).1 := by
  unfold ownSetDomain
  split
  · exact .refl s
  · split
    · exact configureDomain_zonesKept _ _ s
    · exact .refl s

theorem ownSetCap_zonesKept (port : Port) (r : CapRequest) (s : State) : ZonesKept s (ownSetCap port r s).1 := by
  unfold ownSetCap storeCap
  split
  · exact .refl s
  · dsimp only
    split
    · exact .refl s
    · exact (offerCaps_zonesKept _ _).ended.after rfl rfl rfl

theorem ownSetProfile_zonesKept (r : ProfileRequest) (s : State) : ZonesKept s (ownSetProfile r s).1 := by
  unfold ownSetProfile storeEntry
  split
  · split
    · dsimp only
      split
      · exact (reselectDomain_zonesKept _ _).ended.after rfl rfl rfl
      · exact .of_eq rfl rfl rfl
    · exact .refl s
  · exact .refl s

theorem ownSupplyReport_zonesKept (r : ReportRequest) (s : State) : ZonesKept s (ownSupplyReport r s).1 := by
  unfold ownSupplyReport
  exact (recomputeShares_zonesKept _).ended.after rfl rfl rfl

theorem ownSetSupplyConfig_zonesKept (c : SupplyConfig) (s : State) : ZonesKept s (ownSetSupplyConfig c s).1 := by
  unfold ownSetSupplyConfig configureSupply
  split
  · dsimp only
    split
    · exact .refl s
    · exact (recomputeShares_zonesKept _).ended.after rfl rfl rfl
  · exact .refl s

theorem supplyTrips_zonesKept (s : State) : ZonesKept s (supplyTrips s) := by
  unfold supplyTrips
  exact (occurFatal_zonesKept _ _ _ _).ended.after rfl rfl rfl

/-! ## Lines and mode -/

theorem lineSticks_zonesKept (l : LineId) (s : State) : ZonesKept s (lineSticks l s) := by
  unfold lineSticks
  exact (occurFatal_zonesKept _ _ _ _).ended.after rfl rfl rfl

theorem ownSetRouting_zonesKept (r : RoutingRequest) (s : State) : ZonesKept s (ownSetRouting r s).1 := by
  unfold ownSetRouting configureLine
  split
  · exact .refl s
  · split
    · dsimp only
      split
      · exact .refl s
      · exact (endEventWith_ended _ _).zonesKept.after rfl rfl rfl
    · exact .refl s

theorem ownForceLine_zonesKept (r : ForceRequest) (s : State) : ZonesKept s (ownForceLine r s).1 := by
  unfold ownForceLine
  split
  · exact .refl s
  · dsimp only
    split
    · exact .refl s
    · exact (endEvent_ended _).zonesKept.after rfl rfl rfl

/-- ACTIVATE fails one of its checks, or changes the mode (R150, R151). -/
theorem ownActivate_zonesKept (u : Unit) (s : State) : ZonesKept s (ownActivate u s).1 := by
  unfold ownActivate becomeActive
  split
  · exact .refl s
  · split
    · exact .refl s
    · split
      · exact .refl s
      · split
        · exact .refl s
        · exact (deriveColumn_zonesKept _).ended.after rfl rfl rfl

theorem ownDeactivate_zonesKept (u : Unit) (s : State) : ZonesKept s (ownDeactivate u s).1 := by
  unfold ownDeactivate
  split
  · exact (leaveActive_zonesKept s).ended
  · exact .refl s

/-! ## Zones -/

theorem ownSetSkinLimits_zonesKept (r : SkinRequest) (s : State) : ZonesKept s (ownSetSkinLimits r s).1 := by
  unfold ownSetSkinLimits storeLimits
  split
  · exact .refl s
  · split
    · dsimp only
      split
      · exact .of_eq rfl rfl rfl
      · exact (reselectZone_zonesKept _ _).ended.after rfl rfl rfl
    · exact .refl s

/-- A zone with another ladder: a position above the step count is clamped with held 0, and the percent follows (R74). -/
def Zone.withLadder (v : Zone) (steps : List LadderStep) : Zone :=
  { v with
    ladder := steps, position := min v.position steps.length
    held := if min v.position steps.length = v.position then v.held else 0
    percent := percentAt steps (min v.position steps.length) }

theorem Zone.kept_withLadder (v : Zone) (steps : List LadderStep) : v.Kept (v.withLadder steps) := by
  refine ⟨rfl, rfl, rfl, fun ⟨off, runs, estimated, idle, _, _, bounded⟩ => ?_⟩
  refine ⟨off, runs, estimated, fun h => ?_, min_le_right _ _, rfl, ?_⟩
  · obtain ⟨position, held⟩ := idle h
    simp [Zone.withLadder, position, held]
  · simp only [Zone.withLadder]
    split
    · exact bounded
    · exact Nat.zero_le _

/-- Another ladder is stored, and the thermal percents are recomputed (R68, R74). -/
theorem configureLadder_zones {z : ZoneId} {steps : List LadderStep} {s : State}
    (changed : steps ≠ (s.zones.get z).ladder) :
    (configureLadder z steps s).zones = s.zones.set z ((s.zones.get z).withLadder steps) := by
  have ended : ∀ t, (endEvent (recomputeThermal t)).zones = t.zones := fun t =>
    ((endEvent_ended _).same State.zones fun _ => rfl).trans (recomputeThermal_zones t)
  unfold configureLadder Zone.withLadder
  dsimp only
  rw [if_neg changed]
  split
  · rename_i above
    have clamped : min (s.zones.get z).position steps.length = steps.length := by omega
    rw [ended, clamped, if_neg (by omega)]
    simp [moveTo, perZone_set_set]
  · rename_i within
    have unclamped : min (s.zones.get z).position steps.length = (s.zones.get z).position := by omega
    rw [ended, unclamped, if_pos rfl, setZoneRecord_zones]

theorem configureLadder_percentsLeast {z : ZoneId} {steps : List LadderStep} {s : State}
    (changed : steps ≠ (s.zones.get z).ladder) : (configureLadder z steps s).PercentsLeast := by
  have ended : ∀ t, (endEvent (recomputeThermal t)).PercentsLeast := fun t =>
    (endEvent_ended _).zonesKept.percents (recomputeThermal_percentsLeast t)
  unfold configureLadder
  dsimp only
  rw [if_neg changed]
  split <;> exact ended _

theorem configureLadder_zonesKept (z : ZoneId) (steps : List LadderStep) (s : State) :
    ZonesKept s (configureLadder z steps s) := by
  by_cases same : steps = (s.zones.get z).ladder
  · rw [configureLadder, if_pos same]
    exact .refl s
  · exact ⟨.of_set ((s.zones.get z).kept_withLadder steps) (configureLadder_zones same)
      ((configureLadder_evented z steps s).same State.temps fun _ => rfl), fun _ => configureLadder_percentsLeast same⟩

theorem ownSetLadder_zonesKept (r : LadderRequest) (s : State) : ZonesKept s (ownSetLadder r s).1 := by
  unfold ownSetLadder
  split
  · exact .refl s
  · split
    · exact configureLadder_zonesKept _ _ s
    · exact .refl s

theorem leaveZone_zonesKept (z : ZoneId) (v : Zone) (s : State) : ZonesKept s (leaveZone z v s) := by
  unfold leaveZone
  dsimp only
  split <;> split <;> exact .of_eq rfl rfl rfl

/-- A zone that SET_ZONE restarts or disables has a safe record, and then follows its sources as all others do
(R60, R71, R72). -/
theorem restarted_zonesSafe {z : ZoneId} {v w : Zone} {s : State} (h : s.ZonesSafe) (safe : w.Safe) :
    (endEvent (recomputeThermal (followSources z (leaveZone z v (setZoneRecord z w s))))).ZonesSafe := by
  obtain ⟨records, flags, _⟩ := (zonesSafe_iff s).mp h
  have left := leaveZone_zonesKept z v (setZoneRecord z w s)
  have stored : (leaveZone z v (setZoneRecord z w s)).RecordsSafe := left.records fun z' => by
    rw [setZoneRecord_zones, PerZone.get_set]
    split
    · exact safe
    · exact records z'
  have follow : ∀ z', (followSources z (leaveZone z v (setZoneRecord z w s))).FlagsFollow z' := by
    intro z'
    by_cases e : z' = z
    · exact e ▸ followSources_flagsFollow z _
    · refine followSources_keeps_flagsFollow z (left.follows ?_)
      rw [State.FlagsFollow, setZoneRecord_zones, PerZone.get_set_of_ne _ _ _ _ e]
      exact flags z'
  have recomputed := (RecordsKept.refl (followSources z (leaveZone z v (setZoneRecord z w s)))).recomputed
  exact (endEvent_ended _).zonesKept.zonesSafe ((zonesSafe_iff _).mpr
    ⟨recomputed.records (followSources_keeps stored).1, fun z' => recomputed.follows (follow z'),
      recomputeThermal_percentsLeast _⟩)

/-- A zone with no estimate at position 0, OFF or STARTING as its enabled flag says, is safe (R54, R71, R72). -/
theorem Zone.emptied_safe (v : Zone) (cfg : ZoneConfig) (timer : Option Timer) (runs : timer.isSome = cfg.enabled) :
    Zone.Safe { v.emptied (if cfg.enabled then .starting else .off) with cfg := cfg, timer := timer } := by
  cases enabled : cfg.enabled <;> simp [Zone.Safe, Zone.emptied, Zone.counts, percentAt, stepAt, enabled, runs]

/-- The fields of a zone that stays disabled are stored; it has no part in flags and percents (R72). -/
theorem storedDisabled_zonesSafe {z : ZoneId} {cfg : ZoneConfig} {s : State} (h : s.ZonesSafe)
    (was : (s.zones.get z).cfg.enabled = false) (is : cfg.enabled = false) :
    (setZoneRecord z { s.zones.get z with cfg := cfg } s).ZonesSafe := by
  obtain ⟨records, flags, percents⟩ := (zonesSafe_iff s).mp h
  have ⟨off, runs, rest⟩ := records z
  have ⟨degraded, blind⟩ := flags z
  have idle : (s.zones.get z).counts = false := by simp [Zone.counts, off.mpr was]
  refine (zonesSafe_iff _).mpr ⟨fun z' => ?_, fun z' => ?_, percents.setZoneRecord fun d => ?_⟩
  · rw [setZoneRecord_zones, PerZone.get_set]
    split
    · exact ⟨by simpa [is] using off.mpr was, by rw [runs, was, is], rest⟩
    · exact records z'
  · rw [State.FlagsFollow, setZoneRecord_zones, PerZone.get_set]
    split
    · exact ⟨by simp [degraded, degradedBy, was, is], by simp [blind, blindBy, was, is]⟩
    · exact flags z'
  · have idle' : ({ s.zones.get z with cfg := cfg } : Zone).counts = false := idle
    rw [Zone.percentFor, Zone.percentFor, idle, idle']
    rfl

theorem configureZone_zonesSafe {s : State} (h : s.ZonesSafe) (z : ZoneId) (cfg : ZoneConfig) :
    (configureZone z cfg s).ZonesSafe := by
  unfold configureZone
  dsimp only
  split
  · exact h
  · split
    · rename_i was is
      exact storedDisabled_zonesSafe h was is
    · rename_i is
      have safe := (s.zones.get z).emptied_safe cfg (some (Timer.start cfg.interval)) is.symm
      rw [is] at safe
      exact restarted_zonesSafe h safe
    · rename_i is
      have safe := (s.zones.get z).emptied_safe cfg none is.symm
      rw [is] at safe
      exact restarted_zonesSafe h safe

theorem ownSetZone_zonesSafe {s : State} (h : s.ZonesSafe) (r : ZoneRequest) : (ownSetZone r s).1.ZonesSafe := by
  unfold ownSetZone
  split
  · split
    · exact configureZone_zonesSafe h _ _
    · exact h
  · exact h

end Sys2Proof.Machine

/-! # Every step keeps the zones (R54, R55, R60, R63 to R65, R68) -/

namespace Sys2Proof.Machine

open Sys2Proof

/-- The commands whose effect on the zones needs more than `ZonesKept`: they may enter or leave FAILED at a channel, write
a zone's configuration or every record, or update a zone, which keeps a record only where the zone is not OFF. -/
def reachesZones : Instr → Bool
  | .reset _ _ _ => true
  | .conversionEnd _ => true
  | .zoneUpdate _ => true
  | .setChannel _ _ => true
  | .setZone _ _ => true
  | _ => false

theorem event_zonesKept {f : State → State} {s t : State} (own : ZonesKept s (f s))
    (h : outsideReset f s = .next t) : ZonesKept s t :=
  outsideReset_keeps (ZonesKept s) f s t (.refl s) own h

theorem atPort_zonesKept {call : Call} {f : Port → State → State} {s t : State} (own : ZonesKept s (f call.port s))
    (h : atPort call f s = .next t) : ZonesKept s t :=
  atPort_keeps (ZonesKept s) call f s t (.refl s) own h

theorem takeWrite_zonesKept {port : Port} {bytes : List Byte} {taken : Byte → List Byte → State → State} {s : State}
    (own : ∀ kind body, ZonesKept s (taken kind body s)) : ZonesKept s (takeWrite port bytes taken s) :=
  takeWrite_keeps (ZonesKept s) (fun _ _ h => h.trans (.of_eq rfl rfl rfl)) port bytes taken s (.refl s) own

/-- A request keeps the zones where its owner does. -/
theorem request_zonesKept {α : Type} {kind : Kind} {call : Call} {shape : List Byte → Option α}
    {owner : Port → α → State → State × Reply} {body : List Byte} {s t : State}
    (own : ∀ r, ZonesKept s (owner call.port r s).1)
    (h : atPort call (fun port => takeRequest kind port shape (owner port) body) s = .next t) : ZonesKept s t :=
  atPort_zonesKept
    (takeRequest_keeps (ZonesKept s) (fun _ _ h => h.trans (.of_eq rfl rfl rfl)) kind call.port shape (owner call.port)
      body s (.refl s) fun _ r _ _ => own r) h

/-- A request keeps the zones safe where its owner does. -/
theorem request_zonesSafe {α : Type} {kind : Kind} {call : Call} {shape : List Byte → Option α}
    {owner : α → State → State × Reply} {body : List Byte} {s t : State} (safe : s.ZonesSafe)
    (own : ∀ r, (owner r s).1.ZonesSafe)
    (h : atPort call (fun port => takeRequest kind port shape owner body) s = .next t) : t.ZonesSafe :=
  atPort_keeps _ call _ s t safe
    (takeRequest_keeps _ (fun _ _ h => h) kind call.port shape owner body s safe fun _ r _ _ => own r) h

/-- The bus transactions that do not reach the zones keep them. -/
theorem transaction_zonesKept (i : Instr) (s t : State) (hc : (callOf i).isSome = true) (hi : reachesZones i = false)
    (h : exec i s = .next t) : ZonesKept s t := by
  cases i <;> simp only [exec] at h
  case badFrame call bytes => exact atPort_zonesKept (takeWrite_zonesKept fun _ _ => .refl s) h
  case unknown call kind body =>
    refine atPort_zonesKept (takeWrite_zonesKept fun received _ => ?_) h
    split <;> exact .of_eq rfl rfl rfl
  case replyRead call clocked => exact atPort_zonesKept (.of_eq rfl rfl rfl) h
  case identify call body =>
    exact request_zonesKept (owner := fun port _ u => (u, ⟨.ok, identifyFields port u⟩)) (fun _ => .refl s) h
  case readStatus call body =>
    exact request_zonesKept (owner := fun _ _ u => (u, ⟨.ok, statusFields u⟩)) (fun _ => .refl s) h
  case readGrants call body =>
    exact request_zonesKept (owner := fun _ _ u => (u, ⟨.ok, grantsFields u⟩)) (fun _ => .refl s) h
  case readDomain call body =>
    refine request_zonesKept (owner := fun _ => ownReadDomain) (fun r => ?_) h
    unfold ownReadDomain
    split
    · exact .refl s
    · split <;> exact .refl s
  case readZone call body =>
    refine request_zonesKept (owner := fun _ => ownReadZone) (fun r => ?_) h
    unfold ownReadZone
    split <;> exact .refl s
  case readChannel call body =>
    refine request_zonesKept (owner := fun _ => ownReadChannel) (fun r => ?_) h
    unfold ownReadChannel
    split <;> split <;> exact .refl s
  case readFaults call body =>
    exact request_zonesKept (owner := fun _ start u => (u, ⟨.ok, faultsFields start u.faults⟩)) (fun _ => .refl s) h
  case readNotices call body => exact request_zonesKept (owner := ownReadNotices) (fun _ => .refl s) h
  case clearNotices call body => exact request_zonesKept (owner := ownClearNotices) (fun _ => .of_eq rfl rfl rfl) h
  case setNoticeMask call body => exact request_zonesKept (owner := ownSetNoticeMask) (fun _ => .of_eq rfl rfl rfl) h
  case clearFaults call body => exact request_zonesKept (owner := fun _ => ownClearFaults) (fun _ => .of_eq rfl rfl rfl) h
  case setPowerChannel call body =>
    exact request_zonesKept (owner := fun _ => ownSetPowerChannel) (fun r => ownSetPowerChannel_zonesKept r s) h
  case setInput call body =>
    exact request_zonesKept (owner := fun _ => ownSetInput) (fun r => ownSetInput_zonesKept r s) h
  case setPostureTiming call body =>
    exact request_zonesKept (owner := fun _ => ownSetPostureTiming) (fun _ => .of_eq rfl rfl rfl) h
  case setLadder call body =>
    exact request_zonesKept (owner := fun _ => ownSetLadder) (fun r => ownSetLadder_zonesKept r s) h
  case setProfile call body =>
    exact request_zonesKept (owner := fun _ => ownSetProfile) (fun r => ownSetProfile_zonesKept r s) h
  case setSkinLimits call body =>
    exact request_zonesKept (owner := fun _ => ownSetSkinLimits) (fun r => ownSetSkinLimits_zonesKept r s) h
  case setDomain call body =>
    exact request_zonesKept (owner := fun _ => ownSetDomain) (fun r => ownSetDomain_zonesKept r s) h
  case setRouting call body =>
    exact request_zonesKept (owner := fun _ => ownSetRouting) (fun r => ownSetRouting_zonesKept r s) h
  case setSupplyConfig call body =>
    exact request_zonesKept (owner := fun _ => ownSetSupplyConfig) (fun r => ownSetSupplyConfig_zonesKept r s) h
  case supplyReport call body =>
    exact request_zonesKept (owner := fun _ => ownSupplyReport) (fun r => ownSupplyReport_zonesKept r s) h
  case setCap call body => exact request_zonesKept (owner := ownSetCap) (fun r => ownSetCap_zonesKept call.port r s) h
  case postureHint call body =>
    exact request_zonesKept (owner := ownPostureHint) (fun r => ownPostureHint_zonesKept call.port r s) h
  case forceLine call body =>
    exact request_zonesKept (owner := fun _ => ownForceLine) (fun r => ownForceLine_zonesKept r s) h
  case activate call body =>
    exact request_zonesKept (owner := fun _ => ownActivate) (fun r => ownActivate_zonesKept r s) h
  case deactivate call body =>
    exact request_zonesKept (owner := fun _ => ownDeactivate) (fun r => ownDeactivate_zonesKept r s) h
  all_goals simp [callOf, requestParts, reachesZones] at hc hi

/-- The events that do not reach the zones keep them. -/
theorem passing_zonesKept (i : Instr) (s t : State) (hc : callOf i = none) (hi : reachesZones i = false)
    (h : exec i s = .next t) : ZonesKept s t := by
  cases i <;> simp only [exec] at h
  case intervalTimerExpiry c =>
    refine event_zonesKept ?_ h
    split
    · exact .refl s
    · rename_i w _
      refine ((await_zonesKept w s).trans ?_).trans (requestConversion_zonesKept c _)
      exact setTempRecord_zonesKept Iff.rfl
  case sampleArrival n sample =>
    refine event_zonesKept ?_ h
    dsimp only
    refine (await_zonesKept (s.powers.get n).timer s).trans ?_
    exact ((reportPower_zonesKept n _ _ _).trans (deliver_zonesKept n _ _ _)).after rfl rfl rfl
  case tripTimerExpiry =>
    refine event_zonesKept ?_ h
    split
    · exact (await_zonesKept _ s).trans (supplyTrips_zonesKept _)
    · exact .refl s
    · exact .refl s
  case inputLevelChange l high =>
    refine event_zonesKept ?_ h
    dsimp only
    split
    · exact .refl s
    · exact (levelChange_zonesKept l _).after rfl rfl rfl
  case debounceExpiry l =>
    refine event_zonesKept ?_ h
    split
    · exact .refl s
    · exact (await_zonesKept _ s).trans (takeLevel_zonesKept l _ _)
  case dwellExpiry =>
    refine event_zonesKept ?_ h
    split
    · exact .refl s
    · exact (await_zonesKept _ s).trans (commitCandidate_zonesKept _)
  case settleTimerExpiry d =>
    refine event_zonesKept ?_ h
    split
    · exact .refl s
    · exact (await_zonesKept _ s).trans (.of_eq rfl rfl rfl)
  case sensedLevelChange l high =>
    refine event_zonesKept ?_ h
    dsimp only
    split
    · exact .refl s
    · exact (compareLine_ended l _ _).zonesKept.after rfl rfl rfl
  case readbackWindowExpiry l =>
    refine event_zonesKept ?_ h
    split
    · exact .refl s
    · exact (await_zonesKept _ s).trans (lineSticks_zonesKept l _)
  all_goals simp [callOf, requestParts, reachesZones] at hc hi

theorem exec_zonesKept (i : Instr) (s t : State) (hi : reachesZones i = false) (h : exec i s = .next t) :
    ZonesKept s t := by
  cases hc : callOf i with
  | none => exact passing_zonesKept i s t hc hi h
  | some call => exact transaction_zonesKept i s t (by simp [hc]) hi h

/-- The update timer of an enabled zone restarts (R55). -/
theorem restartTimer_zonesKept {z : ZoneId} {s : State} (enabled : (s.zones.get z).cfg.enabled = true) (timer : Timer) :
    ZonesKept s (setZoneRecord z { s.zones.get z with timer := some timer } s) := by
  have kept : (s.zones.get z).Kept { s.zones.get z with timer := some timer } :=
    ⟨rfl, rfl, rfl, fun ⟨off, _, rest⟩ => ⟨off, enabled.symm, rest⟩⟩
  exact ⟨.of_set kept rfl rfl, fun least => least.setZoneRecord fun _ => rfl⟩

/-- A zone's timer runs only while it is enabled, so the zone that updates is not OFF (R54 to R56). -/
theorem zoneUpdate_zonesSafe (z : ZoneId) (s t : State) (safe : s.ZonesSafe)
    (h : execZoneUpdate z s = .next t) : t.ZonesSafe := by
  refine outsideReset_keeps State.ZonesSafe _ s t safe ?_ h
  split
  · exact safe
  · rename_i w running
    have due := (await_zonesKept w s).zonesSafe safe
    have enabled : ((await w s).zones.get z).cfg.enabled = true := by
      have ⟨_, runs, _⟩ := safe.record z
      rw [((await_zonesKept w s).zones z).cfg, ← runs, running]
      rfl
    have ⟨off, _⟩ := due.record z
    have on : ((await w s).zones.get z).state ≠ .off := fun e => by simp [off.mp e] at enabled
    have restarted := restartTimer_zonesKept enabled (Timer.start ((await w s).zones.get z).cfg.interval)
    dsimp only
    split
    · exact restarted.zonesSafe due
    · refine (restarted.trans (updateZone_zonesKept ?_ _).ended).zonesSafe due
      rwa [setZoneRecord_zones, PerZone.get_set_self]

/-- The outcome of a conversion changes its channel, and the zones follow (R8 to R10, R60, R63). -/
theorem conversionEnd_zonesSafe (result : RawResult) (s t : State) (safe : s.ZonesSafe)
    (h : execConversionEnd result s = .next t) : t.ZonesSafe := by
  refine outsideReset_keeps State.ZonesSafe _ s t safe ?_ h
  split
  · exact safe
  · rename_i j _
    have idle : State.ZonesSafe { await j.timer s with converter := none } := (await_zonesKept j.timer s).zonesSafe safe
    dsimp only
    refine (startConversion_zonesKept _).zonesSafe ?_
    split
    · exact idle
    · exact handleOutcome_zonesSafe idle j result

theorem zonesSafe_reset : State.reset.ZonesSafe := by
  refine (zonesSafe_iff _).mpr ⟨fun z => ?_, fun z => ?_, fun d => ?_⟩
  · cases z <;> simp [State.reset, PerZone.get, resetZone, Zone.Safe, Zone.counts, percentAt, stepAt]
  · cases z <;> exact ⟨rfl, rfl⟩
  · cases d <;> rfl

/-- Every command keeps the zones safe. -/
theorem exec_zonesSafe (i : Instr) (s t : State) (channels : s.ChannelsSafe) (safe : s.ZonesSafe)
    (h : exec i s = .next t) : t.ZonesSafe := by
  cases hi : reachesZones i with
  | false => exact (exec_zonesKept i s t hi h).zonesSafe safe
  | true =>
    cases i <;> simp only [exec] at h
    case reset edge pins lines => cases edge <;> cases h <;> exact zonesSafe_reset
    case conversionEnd result => exact conversionEnd_zonesSafe result s t safe h
    case zoneUpdate z => exact zoneUpdate_zonesSafe z s t safe h
    case setChannel call body => exact request_zonesSafe safe (ownSetChannel_zonesSafe safe channels) h
    case setZone call body => exact request_zonesSafe safe (ownSetZone_zonesSafe safe) h
    all_goals simp [reachesZones] at hi

/-- Settles O54: time moves the zones' timers only, and every command keeps the zones safe. -/
theorem everyStepKeepsTheZones : Obligations.EveryStepKeepsTheZones := by
  intro s t channels zones e
  obtain ⟨-, kept⟩ := step_keeps (P := fun u => u.ChannelsSafe ∧ u.ZonesSafe) (fun _ _ h => h)
    (fun u ⟨channels, zones⟩ => ⟨channels.elapse 1, (elapse_zonesKept 1 u).zonesSafe zones⟩)
    (fun i u v ⟨channels, zones⟩ own =>
      ⟨exec_keepsChannels i u v channels own, exec_zonesSafe i u v channels zones own⟩) s t ⟨channels, zones⟩ e
  exact kept

end Sys2Proof.Machine

/-! # SET_LADDER (R65, R68, R73, R74) -/

namespace Sys2Proof.Machine

open Sys2Proof

/-! ## A kind that is pending stays pending through thermal percents and the end of an event (R158) -/

theorem Raised.raise {k : NoticeKind} {s : State} (h : Raised k s) (k' : NoticeKind) : Raised k (raise k' s) := fun p => by
  simp [NoticePort.has_raise, h p]

theorem Raised.of_notices {k : NoticeKind} {s t : State} (h : Raised k s) (notices : t.notices = s.notices) :
    Raised k t := fun p => notices ▸ h p

theorem Raised.inAnyOrder {k : NoticeKind} (todo : List (State → State))
    (each : ∀ f ∈ todo, ∀ s, Raised k s → Raised k (f s)) {s : State} (h : Raised k s) : Raised k (inAnyOrder todo s) :=
  inAnyOrder_keeps (Raised k) (fun _ _ h => h) todo each s h

theorem Raised.resolve {k : NoticeKind} {s : State} (h : Raised k s) (d : DomainId) : Raised k (resolve d s) := by
  unfold Machine.resolve
  dsimp only
  split
  · exact h
  · have changed : ∀ g, Raised k (Machine.raise .grant { s with grants := g }) := fun g =>
      Raised.raise (s := { s with grants := g }) h .grant
    split
    · exact (changed _).of_notices (startSettle_same State.notices (fun _ _ => rfl) d _)
    · exact changed _

/-- An offer to the resolver is a resolution with other contributors (R110). -/
theorem Raised.offered {k : NoticeKind} {s : State} (h : Raised k s) (d : DomainId) (c : PerDomain Contributors) :
    Raised k (Machine.resolve d { s with contributors := c }) :=
  Raised.resolve (s := { s with contributors := c }) h d

theorem Raised.recomputeShares {k : NoticeKind} {s : State} (h : Raised k s) : Raised k (recomputeShares s) := by
  have offered : ∀ before d t, Raised k t → Raised k (offerShareIfChanged before d t) := by
    intro before d t h
    unfold offerShareIfChanged
    split
    · exact h
    · exact h.offered d _
  exact offered _ _ _ (offered _ _ _ (offered _ _ _ h))

theorem Raised.settleAccount {k : NoticeKind} {s : State} (h : Raised k s) (d : DomainId) (next : Account) :
    Raised k (settleAccount d next s) := by
  have raised : ∀ c : Prop, [Decidable c] → ∀ t, Raised k t → Raised k (if c then t else Machine.raise .burst t) := by
    intro c _ t h
    split
    · exact h
    · exact h.raise .burst
  unfold Machine.settleAccount
  dsimp only
  split
  · exact raised _ _ h
  · refine Raised.inAnyOrder _ ?_ (raised _ _ h)
    simp only [List.mem_cons, List.not_mem_nil, or_false]
    rintro f (rfl | rfl) t h
    · exact h.recomputeShares
    · exact h.offered d _

theorem Raised.recomputeThermal {k : NoticeKind} {s : State} (h : Raised k s) : Raised k (recomputeThermal s) := by
  have each : ∀ d t, Raised k t → Raised k (recomputeThermalOf d t) := by
    intro d t h
    unfold recomputeThermalOf
    dsimp only
    split
    · exact h
    · refine Raised.inAnyOrder _ ?_ h
      simp only [List.mem_cons, List.not_mem_nil, or_false]
      rintro f (rfl | rfl) t h
      · exact h.settleAccount d _
      · exact h.offered d _
  refine Raised.inAnyOrder _ ?_ h
  simp only [List.mem_cons, List.not_mem_nil, or_false]
  rintro f (rfl | rfl | rfl) t h <;> exact each _ t h

theorem Raised.endEvent {k : NoticeKind} {s : State} (h : Raised k s) : Raised k (endEvent s) := by
  unfold Machine.endEvent endEventWith
  dsimp only
  split
  · exact h.of_pendingOn (by simp only [deriveLine_pendingOn])
  · exact Raised.raise (h.of_pendingOn (by simp only [deriveLine_pendingOn])) .throttle

/-! ## Ladders -/

/-- The tests of a ladder: ranges of every step, and of each step and its successor offsets falling and percents not
rising (R73). -/
theorem ladderValid_iff (steps : List LadderStep) :
    ladderValid steps = true ↔
      (∀ a ∈ steps, a.offset ≤ 300 ∧ a.percent ≤ 100) ∧
        steps.IsChain fun a b => b.offset < a.offset ∧ b.percent ≤ a.percent := by
  induction steps using ladderValid.induct with
  | case1 => simp [ladderValid]
  | case2 a => simp [ladderValid]
  | case3 a b rest ih =>
    simp only [ladderValid, Bool.and_eq_true, decide_eq_true_eq, ih, List.forall_mem_cons, List.isChain_cons_cons]
    tauto

/-- The ladders that are INVALID: a step out of range, or two that follow each other out of order (R73). -/
theorem ladderValid_eq_false_iff (steps : List LadderStep) :
    ladderValid steps = false ↔
      (∃ a ∈ steps, 300 < a.offset ∨ 100 < a.percent) ∨
        ∃ k a b, steps[k]? = some a ∧ steps[k + 1]? = some b ∧ (a.offset ≤ b.offset ∨ a.percent < b.percent) := by
  have chain : (steps.IsChain fun a b => b.offset < a.offset ∧ b.percent ≤ a.percent) ↔
      ∀ k a b, steps[k]? = some a → steps[k + 1]? = some b → b.offset < a.offset ∧ b.percent ≤ a.percent := by
    rw [List.isChain_iff_getElem]
    refine ⟨fun h k a b ha hb => ?_, fun h k hk => ?_⟩
    · obtain ⟨_, rfl⟩ := List.getElem?_eq_some_iff.mp ha
      obtain ⟨hk, rfl⟩ := List.getElem?_eq_some_iff.mp hb
      exact h k hk
    · exact h k _ _ (List.getElem?_eq_getElem _) (List.getElem?_eq_getElem _)
  simp only [← Bool.not_eq_true, ladderValid_iff, chain, not_and_or, not_forall, not_le, not_lt, exists_prop]

/-! ## Another ladder stored -/

theorem percentAt_eq (ladder : List LadderStep) (position : Nat) :
    percentAt ladder position = if position = 0 then 100 else (ladder[position - 1]?.map (·.percent)).getD 100 := by
  split
  · rename_i base
    rw [base]
    rfl
  · rename_i above
    exact percentAt_of_pos ladder (Nat.pos_of_ne_zero above)

section

variable {z : ZoneId} {steps : List LadderStep} {s : State}

/-- The ladder that the zone has changes nothing (R74). -/
theorem configureLadder_same (h : steps = (s.zones.get z).ladder) : configureLadder z steps s = s := if_pos h

/-- The thermal percents after another ladder are the least of the zones' (R68). -/
theorem configureLadder_leastPercent (changed : steps ≠ (s.zones.get z).ladder) (d : DomainId) :
    LeastPercent (configureLadder z steps s).zones d ((configureLadder z steps s).thermal.get d) :=
  configureLadder_percentsLeast changed d ▸ leastPercent_thermalPercent _ d

/-- A position above the new step count raises LADDER (R74). -/
theorem configureLadder_raises (changed : steps ≠ (s.zones.get z).ladder)
    (above : steps.length < (s.zones.get z).position) : Raised .ladder (configureLadder z steps s) := by
  unfold configureLadder
  dsimp only
  rw [if_neg changed, if_pos above]
  exact (raised_raise .ladder _).recomputeThermal.endEvent

/-- A changed ladder writes what a column switch and the end of an event write. -/
theorem configureLadder_withoutUpdate : (configureLadder z steps s).withoutUpdate = s.withoutUpdate := by
  have ended : ∀ t, (endEvent (recomputeThermal t)).withoutUpdate = t.withoutUpdate := fun t =>
    ((endEvent_ended _).same State.withoutUpdate fun _ => rfl).trans
      ((recomputeThermal_limited t).same State.withoutUpdate fun _ => rfl)
  unfold configureLadder
  dsimp only
  split
  · rfl
  · split
    · exact ended _
    · exact ended _

end

/-! ## The request -/

/-- A request of Port P with the kind's shape is its owner's. -/
theorem setLadder_checked {body : List Byte} {r : LadderRequest} {s : State} (running : s.inReset = false)
    (shape : shapeSetLadder body = some r) :
    exec (.setLadder (s.call .platform) body) s =
      .next (answer .platform .setLadder (ownSetLadder r s).2 (ownSetLadder r s).1) := by
  have short : body.length ≤ 60 := by
    unfold shapeSetLadder at shape
    split at shape
    · omega
    · cases shape
  simp only [exec, execSetLadder, atPort_call _ _ _ running]
  rw [takeRequest_frame _ _ _ _ _ _ short, checkRequest_taken _ _ _ _ _ _ r ⟨rfl, rfl⟩ shape]

/-- The owner of a request for a zone that exists takes it exactly with a valid ladder (R73). -/
theorem ownSetLadder_zone {r : LadderRequest} {z : ZoneId} (named : r.zone = z.number) (s : State) :
    ownSetLadder r s = if ladderValid r.steps then (configureLadder z r.steps s, .bare .ok) else (s, .bare .invalid) := by
  simp [ownSetLadder, named]

/-- Settles O28: INVALID and OK by R73, and after OK the ladder stored and the percents recomputed. -/
theorem setLadderStoresTheSteps : Obligations.SetLadderStoresTheSteps := by
  intro body r z s running shape named v e invalid position
  have answered : e = _ := setLadder_checked running shape
  rw [ownSetLadder_zone named] at answered
  refine ⟨fun refused => ?_, fun taken => ?_⟩
  · rw [(ladderValid_eq_false_iff r.steps).mpr refused] at answered
    exact answered
  · rw [if_pos (by simpa using mt (ladderValid_eq_false_iff r.steps).mp taken)] at answered
    refine ⟨configureLadder z r.steps s, answered, configureLadder_same, fun changed =>
      ⟨?_, configureLadder_raises changed, configureLadder_leastPercent changed⟩, configureLadder_withoutUpdate⟩
    rw [configureLadder_zones changed, Zone.withLadder, percentAt_eq]

end Sys2Proof.Machine

/-! # The record of a headroom account: what its operations keep of R76 to R82 -/

namespace Sys2Proof.Machine

open Sys2Proof

/-- An account with the allowance that its state selects (R82). -/
def Account.settled (a : Account) : Account := { a with allowance := a.selected }

/-- What an account holds before the state rule is applied to it: the entry, percent and recover percent with what follows
from them, and a credit within the capacity (R76 to R79). -/
structure Account.Measured (a : Account) (e : Entry) (percent recover : Nat) : Prop where
  s : a.s = e.s
  b : a.b = e.b
  w : a.w = e.w
  capacity : a.capacity = (e.b - e.s) * e.w
  credit : a.credit ≤ a.capacity
  held : a.percent = percent
  sEff : a.sEff = e.s * percent / 100
  bEff : a.bEff = e.b * percent / 100
  threshold : a.threshold = max 1 (a.capacity * recover / 100)

theorem Account.Safe.measured {a : Account} {e : Entry} {percent recover : Nat} (h : a.Safe e percent recover) :
    a.Measured e percent recover := by
  obtain ⟨hs, hb, hw, capacity, credit, same, sEff, bEff, threshold, _⟩ := h
  exact ⟨hs, hb, hw, capacity, credit, same, sEff, bEff, threshold⟩

theorem Account.selected_of_burst {a : Account} (h : a.state = .burst) : a.selected = a.bEff := by
  simp [Account.selected, h]

theorem Account.selected_of_sustained {a : Account} (h : a.state = .sustained) : a.selected = a.sEff := by
  simp [Account.selected, h]

/-- The state rule leaves BURST only with credit (R81). -/
theorem credit_pos_of_stateRule_burst {old : AccountState} {capacity credit threshold : Nat} (positive : 0 < threshold)
    (h : stateRule old capacity credit threshold = .burst) : 0 < credit := by
  cases old with
  | burst => simp [stateRule, ite_eq_iff] at h; omega
  | sustained => simp [stateRule, ite_eq_iff] at h; omega

/-- The state rule leaves SUSTAINED only below the threshold or without capacity (R81). -/
theorem below_of_stateRule_sustained {old : AccountState} {capacity credit threshold : Nat} (positive : 0 < threshold)
    (h : stateRule old capacity credit threshold = .sustained) : capacity = 0 ∨ credit < threshold := by
  cases old with
  | burst => simp [stateRule] at h; omega
  | sustained => simp [stateRule] at h; omega

/-- The state rule and the selection of the allowance make an account safe (R81, R82). -/
theorem Account.Measured.ruled {a : Account} {e : Entry} {percent recover : Nat} (h : a.Measured e percent recover) :
    a.ruled.settled.Safe e percent recover := by
  have positive : 0 < a.threshold := by
    have := h.threshold
    omega
  exact ⟨h.s, h.b, h.w, h.capacity, h.credit, h.held, h.sEff, h.bEff, h.threshold,
    fun burst => ⟨credit_pos_of_stateRule_burst positive burst, Account.selected_of_burst burst⟩,
    fun sustained => ⟨below_of_stateRule_sustained positive sustained, Account.selected_of_sustained sustained⟩⟩

/-- An account that has copied an entry is safe for it, at the percent it holds (R77, R84). -/
theorem Account.switched_safe (a : Account) (e : Entry) (recover : Nat) :
    (a.switched e recover).settled.Safe e a.percent recover :=
  Account.Measured.ruled ⟨rfl, rfl, rfl, rfl, Nat.min_le_right _ _, rfl, rfl, rfl, rfl⟩

theorem creditAfter_le_capacity (credit capacity sEff power dt : Nat) :
    creditAfter credit capacity sEff power dt ≤ capacity := by
  unfold creditAfter clampInt
  split_ifs <;> omega

/-- A delivery leaves an account safe (R79, R81). -/
theorem Account.Safe.delivered {a : Account} {e : Entry} {percent recover : Nat} (h : a.Safe e percent recover)
    (power dt : Nat) :
    (Account.ruled { a with credit := creditAfter a.credit a.capacity a.sEff power dt }).settled.Safe e percent
      recover :=
  Account.Measured.ruled { h.measured with credit := creditAfter_le_capacity _ _ _ _ _ }

/-- Another recover percent leaves an account safe for that one (R88). -/
theorem Account.Safe.recovered {a : Account} {e : Entry} {percent old : Nat} (h : a.Safe e percent old)
    (recover : Nat) :
    (Account.ruled { a with threshold := recoverThreshold a.capacity recover }).settled.Safe e percent recover :=
  Account.Measured.ruled { h.measured with threshold := rfl }

/-- Another thermal percent leaves an account safe for that one; its state stays (R78, R85). -/
theorem Account.Safe.heated {a : Account} {e : Entry} {old recover : Nat} (h : a.Safe e old recover) (percent : Nat) :
    (Account.rescaled { a with percent := percent }).settled.Safe e percent recover := by
  obtain ⟨hs, hb, hw, capacity, credit, _, _, _, threshold, burst, sustained⟩ := h
  refine ⟨hs, hb, hw, capacity, credit, rfl, ?_, ?_, threshold, fun state => ?_, fun state => ?_⟩
  · rw [← hs]; rfl
  · rw [← hb]; rfl
  · obtain ⟨credited, _⟩ := burst state
    exact ⟨credited, Account.selected_of_burst state⟩
  · obtain ⟨below, _⟩ := sustained state
    exact ⟨below, Account.selected_of_sustained state⟩

end Sys2Proof.Machine

/-! # What the consequences of an event keep of the accounts (R69, R78, R82, R84, R85) -/

namespace Sys2Proof.Machine

open Sys2Proof

/-! ## The entries that the accounts hold -/

/-- Every account is safe for these entries, which need not be those of the column in use: between a change of the column
and its announcement an account still holds the entry of the column before. -/
def State.Holds (s : State) (entries : DomainId → Entry) : Prop :=
  ∀ d, (s.accounts.get d).Safe (entries d) (s.thermal.get d) (s.domains.get d).recover

/-- The entry of each domain in the column in use (R40). -/
def State.inUse (s : State) : DomainId → Entry := fun d => (s.profile.get d).get s.column

theorem accountsSafe_iff (s : State) : s.AccountsSafe ↔ s.Holds s.inUse := Iff.rfl

variable {s t : State} {entries : DomainId → Entry}

theorem Logged.holds (k : Logged s t) (h : s.Holds entries) : t.Holds entries :=
  (k.same (State.Holds · entries) fun _ => rfl).mpr h

theorem Offered.holds (k : Offered s t) (h : s.Holds entries) : t.Holds entries :=
  (k.same (State.Holds · entries) fun _ => rfl).mpr h

theorem Switched.inUse (k : Switched s t) : t.inUse = s.inUse := k.same State.inUse fun _ => rfl

theorem Logged.accountsSafe (k : Logged s t) (safe : s.AccountsSafe) : t.AccountsSafe :=
  (k.same State.AccountsSafe fun _ => rfl).mpr safe

theorem Offered.accountsSafe (k : Offered s t) (safe : s.AccountsSafe) : t.AccountsSafe :=
  (k.same State.AccountsSafe fun _ => rfl).mpr safe

theorem Ended.accountsSafe (k : Ended s t) (safe : s.AccountsSafe) : t.AccountsSafe :=
  (k.same State.AccountsSafe fun _ => rfl).mpr safe

/-- What a column switch reaches leaves profile table and column in use, so the entries to hold are the same. -/
theorem Switched.accountsSafe_of_holds (k : Switched s t) (holds : t.Holds s.inUse) : t.AccountsSafe := by
  rwa [accountsSafe_iff, k.inUse]

theorem Switched.accountsSafe (k : Switched s t) (holds : ∀ entries, s.Holds entries → t.Holds entries)
    (safe : s.AccountsSafe) : t.AccountsSafe :=
  k.accountsSafe_of_holds (holds _ safe)

/-! ## One consequence among offers -/

/-- Of one consequence and some offers, in any order, the one shows: offers change nothing that it looks at. -/
theorem Offered.inAnyOrder_cons {f : State → State} (congr : ∀ {s t}, Offered s t → Offered (f s) (f t))
    (offers : List (State → State)) (each : ∀ g ∈ offers, ∀ s, Offered s (g s)) (s : State) :
    Offered (f s) (Machine.inAnyOrder (f :: offers) s) := by
  classical
  have taken := inAnyOrder_spec
    (fun rest t =>
      (∃ others, rest.Perm (f :: others) ∧ (∀ g ∈ others, ∀ s, Offered s (g s)) ∧ Offered s t) ∨
        (∀ g ∈ rest, ∀ s, Offered s (g s)) ∧ Offered (f s) t)
    (fun _ _ _ h => h)
    (fun rest i hi t h => by
      have parts := List.getElem_cons_eraseIdx_perm hi
      rcases h with ⟨others, perm, quiet, before⟩ | ⟨quiet, after⟩
      · obtain ⟨listed, left⟩ := List.cons_perm_iff_perm_erase.mp (parts.trans perm)
        by_cases one : rest[i] = f
        · rw [one, List.erase_cons_head] at left
          exact .inr ⟨fun g hg => quiet g (left.subset hg), one ▸ congr before⟩
        · rw [List.erase_cons_tail (by simpa using Ne.symm one)] at left
          have offer : rest[i] ∈ others := (List.mem_cons.mp listed).resolve_left one
          exact .inl ⟨_, left, fun g hg => quiet g (List.mem_of_mem_erase hg), before.trans (quiet _ offer t)⟩
      · exact .inr ⟨fun g hg => quiet g (List.mem_of_mem_eraseIdx hg), after.trans (quiet _ (List.getElem_mem hi) t)⟩)
    (f :: offers) s (.inl ⟨offers, .refl _, each, rfl⟩)
  rcases taken with ⟨others, perm, _⟩ | ⟨_, done⟩
  · exact absurd perm.length_eq (by simp)
  · exact done

/-! ## Accounts -/

/-- s with the record of an account replaced. -/
def State.withAccount (s : State) (d : DomainId) (a : Account) : State := { s with accounts := s.accounts.set d a }

/-- The end of an event at an account stores it settled, and otherwise offers (R82). -/
theorem settleAccount_stores (d : DomainId) (next : Account) (s : State) :
    Offered (s.withAccount d next.settled) (settleAccount d next s) := settleAccount_offered d next s

/-- What an account reads at the end of its event, and what that leaves, does not depend on earlier offers. -/
theorem settleAccount_congr {d : DomainId} {next : State → Account} (blind : ∀ u : State, next u.withoutOffers = next u)
    (k : Offered s t) : Offered (settleAccount d (next s) s) (settleAccount d (next t) t) := by
  have same : next t = next s := k.same next blind
  have stored : Offered (s.withAccount d (next s).settled) (t.withAccount d (next s).settled) :=
    k.same (fun u => (u.withAccount d (next s).settled).withoutOffers) fun _ => rfl
  rw [same]
  exact Eq.trans (stored.trans (settleAccount_stores d (next s) t)) (settleAccount_stores d (next s) s).symm

/-- The account that ends its event fits its new entry, and every other account its old one (R82). -/
theorem settleAccount_holds {d : DomainId} {next : Account}
    (own : next.settled.Safe (entries d) (s.thermal.get d) (s.domains.get d).recover)
    (others : ∀ d', d' ≠ d → (s.accounts.get d').Safe (entries d') (s.thermal.get d') (s.domains.get d').recover) :
    (settleAccount d next s).Holds entries := by
  refine (settleAccount_stores d next s).holds fun d' => ?_
  rw [State.withAccount, PerDomain.get_set]
  split
  · rename_i same
    exact same ▸ own
  · rename_i other
    exact others d' other

/-- After a switch or re-selection the account holds the entry in use, and the others what they held (R84). -/
theorem accountSwitch_holds (h : s.Holds entries) (d : DomainId) :
    (accountSwitch d s).Holds (Function.update entries d (s.inUse d)) := by
  refine settleAccount_holds ?_ fun d' other => ?_
  · rw [Function.update_self, ← (h d).measured.held]
    exact Account.switched_safe _ _ _
  · rw [Function.update_of_ne other]
    exact h d'

theorem accountDelivery_holds (h : s.Holds entries) (d : DomainId) (power dt : Nat) :
    (accountDelivery d power dt s).Holds entries :=
  settleAccount_holds ((h d).delivered power dt) fun d' _ => h d'

/-- A changed thermal percent reaches its account, and the others hold on to theirs (R85). -/
theorem recomputeThermalOf_holds (h : s.Holds entries) (d : DomainId) : (recomputeThermalOf d s).Holds entries := by
  have congr : ∀ {s t}, Offered s t → Offered (accountThermal d s) (accountThermal d t) :=
    settleAccount_congr (next := fun u => Account.rescaled { u.accounts.get d with percent := u.thermal.get d })
      fun _ => rfl
  unfold recomputeThermalOf offerThermal
  dsimp only
  split
  · exact h
  · refine (Offered.inAnyOrder_cons congr [offerPercentToResolver d] ?_ _).holds ?_
    · simpa only [List.forall_mem_singleton] using offerPercentToResolver_offered d
    · refine settleAccount_holds ((h d).heated _) fun d' other => ?_
      rw [PerDomain.get_set_of_ne _ _ _ _ other]
      exact h d'

theorem recomputeThermal_holds (h : s.Holds entries) : (recomputeThermal s).Holds entries := by
  refine inAnyOrder_keeps (State.Holds · entries) (fun _ _ h => h) _ ?_ s h
  simp only [List.mem_cons, List.not_mem_nil, or_false]
  rintro f (rfl | rfl | rfl) t h <;> exact recomputeThermalOf_holds h _

theorem recomputeThermal_accountsSafe (safe : s.AccountsSafe) : (recomputeThermal s).AccountsSafe :=
  (recomputeThermal_limited s).switched.accountsSafe (fun _ => recomputeThermal_holds) safe

/-! ## Zones -/

theorem tripCheck_holds (h : s.Holds entries) (z : ZoneId) : (tripCheck z s).Holds entries := by
  unfold tripCheck
  dsimp only
  split
  · exact h
  · split
    · split
      · exact (occur_logged _ _ _ _).holds (s := setZoneRecord z _ s) h
      · exact h
    · split <;> exact h
    · exact h
    · exact h

theorem ladderUp_holds (h : s.Holds entries) (z : ZoneId) : (ladderUp z s).Holds entries := by
  unfold ladderUp
  dsimp only
  split
  · exact h
  · split <;> exact h

theorem ladderUpdate_holds (h : s.Holds entries) (z : ZoneId) : (ladderUpdate z s).Holds entries := by
  unfold ladderUpdate
  dsimp only
  split
  · exact h
  · split
    · exact ladderUp_holds h z
    · split <;> exact h

theorem zoneSwitch_holds (h : s.Holds entries) (z : ZoneId) : (zoneSwitch z s).Holds entries := by
  unfold zoneSwitch
  split
  · exact ladderUp_holds (tripCheck_holds h z) z
  · exact h

theorem zonesSwitch_holds (h : s.Holds entries) : (zonesSwitch s).Holds entries := by
  refine recomputeThermal_holds (inAnyOrder_keeps (State.Holds · entries) (fun _ _ h => h) _ ?_ s h)
  simp only [List.mem_cons, List.not_mem_nil, or_false]
  rintro f (rfl | rfl | rfl | rfl) t h <;> exact zoneSwitch_holds h _

theorem reselectZone_accountsSafe (safe : s.AccountsSafe) (z : ZoneId) : (reselectZone z s).AccountsSafe :=
  (reselectZone_switched z s).accountsSafe (fun _ h => recomputeThermal_holds (zoneSwitch_holds h z)) safe

theorem updateZone_accountsSafe (safe : s.AccountsSafe) (z : ZoneId) (sum : Int) : (updateZone z sum s).AccountsSafe := by
  refine (updateZone_switched z sum s).accountsSafe (fun entries h => ?_) safe
  have checked : (tripCheck z (setZoneRecord z ((s.zones.get z).estimated (rawOf sum)) s)).Holds entries :=
    tripCheck_holds (s := setZoneRecord z _ s) h z
  unfold updateZone
  dsimp only
  split
  · exact recomputeThermal_holds (ladderUp_holds checked z)
  · exact recomputeThermal_holds (ladderUpdate_holds checked z)

/-! ## Column switches -/

/-- The recipients of a column switch (R42). -/
def switchRecipients : List (State → State) :=
  [zonesSwitch, accountSwitch .d0, accountSwitch .d1, accountSwitch .d2, recomputeShares]

theorem announceSwitch_eq (s : State) : announceSwitch s = inAnyOrder switchRecipients s := rfl

/-- Each recipient leaves an account its entry or gives it the one in use. -/
theorem switchRecipient_holds {f : State → State} (hf : f ∈ switchRecipients) (h : s.Holds entries) :
    (f s).inUse = s.inUse ∧
      ∃ after, (f s).Holds after ∧ ∀ d, after d = entries d ∨ after d = s.inUse d := by
  have switched : ∀ d, (accountSwitch d s).inUse = s.inUse ∧
      ∃ after, (accountSwitch d s).Holds after ∧ ∀ d, after d = entries d ∨ after d = s.inUse d := fun d => by
    refine ⟨(accountSwitch_limited d s).switched.inUse, _, accountSwitch_holds h d, fun d' => ?_⟩
    by_cases same : d' = d
    · exact .inr (by rw [same, Function.update_self])
    · exact .inl (Function.update_of_ne same _ _)
  simp only [switchRecipients, List.mem_cons, List.not_mem_nil, or_false] at hf
  rcases hf with rfl | rfl | rfl | rfl | rfl
  · exact ⟨(zonesSwitch_switched s).inUse, entries, zonesSwitch_holds h, fun _ => .inl rfl⟩
  · exact switched .d0
  · exact switched .d1
  · exact switched .d2
  · exact ⟨(recomputeShares_offered s).limited.switched.inUse, entries, (recomputeShares_offered s).holds h,
      fun _ => .inl rfl⟩

/-- Whatever entries the accounts held, after the announcement they hold those in use (R42, R84). -/
theorem announceSwitch_accountsSafe (h : s.Holds entries) : (announceSwitch s).AccountsSafe := by
  intro d
  rw [announceSwitch_eq]
  have ⟨inUse, after, holds, reached⟩ : (inAnyOrder switchRecipients s).inUse = s.inUse ∧
      ∃ after, (inAnyOrder switchRecipients s).Holds after ∧ after d = s.inUse d := by
    refine inAnyOrder_brings (fun t => t.inUse = s.inUse ∧ ∃ after, t.Holds after ∧ after d = s.inUse d)
      (fun t => t.inUse = s.inUse ∧ ∃ entries, t.Holds entries) (fun _ _ h => h) (fun _ _ h => h) switchRecipients
      (accountSwitch d) (by cases d <;> simp [switchRecipients]) ?_ ?_ ?_ s ⟨rfl, _, h⟩
    · rintro t ⟨same, entries, h⟩
      exact ⟨(accountSwitch_limited d t).switched.inUse.trans same, _, accountSwitch_holds h d,
        by rw [Function.update_self, same]⟩
    · rintro f hf t ⟨same, entries, h⟩
      obtain ⟨kept, after, holds, _⟩ := switchRecipient_holds hf h
      exact ⟨kept.trans same, after, holds⟩
    · rintro f hf t - ⟨same, entries, h, reached⟩
      obtain ⟨kept, after, holds, either⟩ := switchRecipient_holds hf h
      refine ⟨kept.trans same, after, holds, ?_⟩
      rcases either d with old | new
      · exact old.trans reached
      · rw [new, same]
  have fits := holds d
  rwa [reached, ← inUse] at fits

theorem deriveColumn_accountsSafe (safe : s.AccountsSafe) : (deriveColumn s).AccountsSafe := by
  unfold deriveColumn
  dsimp only
  split
  · exact safe
  · exact announceSwitch_accountsSafe (entries := s.inUse) safe

theorem deriveEffective_accountsSafe (safe : s.AccountsSafe) : (deriveEffective s).AccountsSafe := by
  unfold deriveEffective
  dsimp only
  split
  · exact safe
  · exact deriveColumn_accountsSafe safe

/-! ## Leaving ACTIVE (R113, R152 to R154) -/

/-- A changed cap is offered to resolver and arbiter (R112, R113). -/
theorem offerCaps_offered (d : DomainId) (s : State) :
    Offered s (inAnyOrder [offerCapsToResolver d, recomputeShares] s) := by
  apply Offered.inAnyOrder
  simp only [List.mem_cons, List.not_mem_nil, or_false]
  rintro f (rfl | rfl) t
  · exact offerCapsToResolver_offered d t
  · exact recomputeShares_offered t

theorem clearCapS_accountsSafe (safe : s.AccountsSafe) (d : DomainId) : (clearCapS d s).AccountsSafe := by
  unfold clearCapS
  dsimp only
  split
  · exact safe
  · exact (offerCaps_offered d _).accountsSafe safe

theorem dropSystemHint_accountsSafe (safe : s.AccountsSafe) : (dropSystemHint s).AccountsSafe := by
  unfold dropSystemHint
  split
  · exact deriveEffective_accountsSafe safe
  · exact safe

theorem leaveActive_accountsSafe (safe : s.AccountsSafe) : (leaveActive s).AccountsSafe := by
  refine inAnyOrder_keeps State.AccountsSafe (fun _ _ h => h) _ ?_ _ safe
  simp only [List.mem_cons, List.not_mem_nil, or_false]
  rintro f (rfl | rfl | rfl | rfl | rfl) t safe
  · exact deriveColumn_accountsSafe safe
  · exact clearCapS_accountsSafe safe _
  · exact clearCapS_accountsSafe safe _
  · exact clearCapS_accountsSafe safe _
  · exact dropSystemHint_accountsSafe safe

theorem occurFatal_accountsSafe (safe : s.AccountsSafe) (kind : FaultKind) (n : Nat) (value : Option Int) :
    (occurFatal kind n value s).AccountsSafe := by
  have logged := (occur_logged kind n value s).accountsSafe safe
  cases mode : s.mode with
  | safe => rwa [occurFatal_safe _ _ _ _ mode]
  | active =>
    rw [occurFatal_active _ _ _ _ mode]
    exact leaveActive_accountsSafe logged

theorem followSources_accountsSafe (safe : s.AccountsSafe) (z : ZoneId) : (followSources z s).AccountsSafe := by
  unfold followSources
  dsimp only
  split
  · exact safe
  · split
    · exact occurFatal_accountsSafe (s := setZoneRecord z _ s) safe _ _ _
    · exact safe

theorem followAllSources_accountsSafe (safe : s.AccountsSafe) : (followAllSources s).AccountsSafe := by
  refine inAnyOrder_keeps State.AccountsSafe (fun _ _ h => h) _ (fun f hf t safe => ?_) s safe
  obtain ⟨z, rfl⟩ := mem_followAll hf
  exact followSources_accountsSafe safe z

theorem endEvent_accountsSafe (safe : s.AccountsSafe) : (endEvent s).AccountsSafe :=
  (endEvent_ended s).accountsSafe safe

end Sys2Proof.Machine

/-! # What the commands do to the accounts (R78, R79, R84, R85, R88) -/

namespace Sys2Proof.Machine

open Sys2Proof

variable {s : State}

/-! ## Sensing (chapter 1) -/

theorem await_accountsSafe (safe : s.AccountsSafe) (w : Timer) : (await w s).AccountsSafe := by
  unfold await
  split <;> exact safe

theorem startConversion_accountsSafe (safe : s.AccountsSafe) : (startConversion s).AccountsSafe :=
  (startConversion_same State.AccountsSafe (fun _ _ _ => rfl) s).mpr safe

theorem requestConversion_accountsSafe (safe : s.AccountsSafe) (c : TempId) : (requestConversion c s).AccountsSafe := by
  unfold requestConversion
  split
  · exact (occur_logged _ _ _ s).accountsSafe safe
  · exact startConversion_accountsSafe (s := { s with queue := s.queue ++ [c] }) safe

theorem changeTemp_accountsSafe (safe : s.AccountsSafe) (c : TempId) (v next : TempChannel) :
    (changeTemp c v next s).AccountsSafe := by
  have followed : ∀ {t : State}, t.AccountsSafe → (sourcesChanged t).AccountsSafe := fun safe =>
    endEvent_accountsSafe (followAllSources_accountsSafe safe)
  unfold changeTemp
  dsimp only
  split
  · exact followed ((occur_logged _ _ _ (setTempRecord c next s)).accountsSafe safe)
  · split
    · exact followed safe
    · exact safe

theorem handleOutcome_accountsSafe (safe : s.AccountsSafe) (j : Conversion) (result : RawResult) :
    (handleOutcome j result s).AccountsSafe := by
  unfold handleOutcome
  dsimp only
  split <;> exact changeTemp_accountsSafe safe _ _ _

theorem ownSetChannel_accountsSafe (safe : s.AccountsSafe) (r : ChannelRequest) :
    (ownSetChannel r s).1.AccountsSafe := by
  have configured : ∀ c cfg, (configureChannel c cfg s).AccountsSafe := by
    intro c cfg
    have removed : (voidConversion c { s with queue := s.queue.filter fun q => q != c }).AccountsSafe := safe
    have voided : (voidConversion c s).AccountsSafe := safe
    unfold configureChannel
    dsimp only
    split
    · exact safe
    · split
      · exact safe
      · exact safe
      · exact changeTemp_accountsSafe removed _ _ _
      · exact changeTemp_accountsSafe voided _ _ _
  unfold ownSetChannel
  split
  · exact safe
  · dsimp only
    split
    · exact safe
    · split
      · exact safe
      · exact configured _ _

/-! ## Samples (R15 to R19) -/

theorem judgeDelivery_accountsSafe (safe : s.AccountsSafe) (d : DomainId) (power : Nat) :
    (judgeDelivery d power s).AccountsSafe := by
  unfold judgeDelivery
  dsimp only
  split
  · split
    · exact safe
    · split
      · split
        · exact (occur_logged _ _ _ (setCompliance d _ s)).accountsSafe safe
        · exact safe
      · exact safe
  · split
    · split <;> exact safe
    · exact safe

theorem complianceDelivery_accountsSafe (safe : s.AccountsSafe) (d : DomainId) (q : Quality) (power : Nat) :
    (complianceDelivery d q power s).AccountsSafe := by
  cases q
  · exact judgeDelivery_accountsSafe safe d power
  · exact judgeDelivery_accountsSafe safe d power
  · unfold complianceDelivery substituteCompliance
    dsimp only
    split <;> exact safe

/-- A delivery reaches the account after compliance, and leaves it the entry that it holds (R79). -/
theorem deliverToDomain_accountsSafe (safe : s.AccountsSafe) (d : DomainId) (v : PowerChannel) :
    (deliverToDomain d v s).AccountsSafe := by
  unfold deliverToDomain
  split
  · exact safe
  · exact endEvent_accountsSafe ((accountDelivery_limited d _ _ _).switched.accountsSafe
      (fun _ h => accountDelivery_holds h d _ _) (complianceDelivery_accountsSafe safe d _ _))

theorem restChange_accountsSafe (safe : s.AccountsSafe) (before : Nat) : (restChange before s).AccountsSafe := by
  unfold restChange
  split
  · exact safe
  · exact endEvent_accountsSafe ((recomputeShares_offered s).accountsSafe safe)

theorem watchDelivery_accountsSafe (safe : s.AccountsSafe) (power : Nat) : (watchDelivery power s).AccountsSafe := by
  unfold watchDelivery
  dsimp only
  split
  · exact safe
  · exact safe
  · split <;> exact safe

theorem deliverToWatch_accountsSafe (safe : s.AccountsSafe) (old : ChannelState) (v : PowerChannel) :
    (deliverToWatch old v s).AccountsSafe := by
  unfold deliverToWatch watchFailure
  split
  · exact endEvent_accountsSafe (watchDelivery_accountsSafe safe _)
  · exact endEvent_accountsSafe (watchDelivery_accountsSafe safe _)
  · split
    · exact safe
    · split <;> exact safe
  · exact safe
  · exact safe

theorem deliver_accountsSafe (safe : s.AccountsSafe) (n : PowerId) (old v : PowerChannel) :
    (deliver n old v s).AccountsSafe := by
  cases n
  · exact deliverToDomain_accountsSafe safe _ _
  · exact deliverToDomain_accountsSafe safe _ _
  · exact deliverToDomain_accountsSafe safe _ _
  · exact restChange_accountsSafe safe _
  · exact deliverToWatch_accountsSafe safe _ _

theorem reportPower_accountsSafe (safe : s.AccountsSafe) (n : PowerId) (old new : ChannelState) :
    (reportPower n old new s).AccountsSafe := by
  unfold reportPower
  split
  · exact (occur_logged _ _ _ s).accountsSafe safe
  · split <;> exact safe

theorem ownSetPowerChannel_accountsSafe (safe : s.AccountsSafe) (r : PowerChannelRequest) :
    (ownSetPowerChannel r s).1.AccountsSafe := by
  unfold ownSetPowerChannel
  split
  · exact safe
  · split
    · exact safe
    · unfold configurePower
      dsimp only
      split
      case h_1 =>
        refine restChange_accountsSafe ?_ _
        exact safe
      all_goals exact safe

/-! ## Posture (R23 to R38) -/

theorem commit_accountsSafe (safe : s.AccountsSafe) (c : Place) : (commit c s).AccountsSafe := by
  unfold commit
  dsimp only
  split
  · split <;> exact safe
  · exact safe

theorem reclassify_accountsSafe (safe : s.AccountsSafe) : (reclassify s).AccountsSafe := by
  unfold reclassify setDwell
  dsimp only
  split
  · exact safe
  · split
    · exact safe
    · split
      · exact safe
      · refine commit_accountsSafe ?_ _
        exact safe
      · exact safe

theorem classifierEvent_accountsSafe (safe : s.AccountsSafe) (l : InputId) (edge : Bool) :
    (classifierEvent l edge s).AccountsSafe := by
  refine deriveEffective_accountsSafe (reclassify_accountsSafe ?_)
  split <;> exact safe

theorem takeLevel_accountsSafe (safe : s.AccountsSafe) (l : InputId) (asserted : Bool) :
    (takeLevel l asserted s).AccountsSafe := by
  have noticed : ∀ (c : Bool) (k : NoticeKind) (inputs : PerInput InputLine),
      (if c then raise k { s with inputs := inputs } else { s with inputs := inputs }).AccountsSafe := by
    intro c k inputs
    split <;> exact safe
  cases l
  case acin =>
    refine endEvent_accountsSafe (inAnyOrder_keeps State.AccountsSafe (fun _ _ h => h) _ ?_ _ (noticed _ _ _))
    simp only [List.mem_cons, List.not_mem_nil, or_false]
    rintro f (rfl | rfl) t safe
    · exact classifierEvent_accountsSafe safe _ _
    · exact (recomputeShares_offered t).accountsSafe safe
  all_goals exact endEvent_accountsSafe (classifierEvent_accountsSafe (noticed _ _ _) _ _)

theorem startDebounce_accountsSafe (safe : s.AccountsSafe) (l : InputId) (asserted : Bool) :
    (startDebounce l asserted s).AccountsSafe := by
  unfold startDebounce
  dsimp only
  split
  · exact takeLevel_accountsSafe safe l asserted
  · exact safe

theorem levelChange_accountsSafe (safe : s.AccountsSafe) (l : InputId) : (levelChange l s).AccountsSafe := by
  unfold levelChange
  dsimp only
  split
  · exact safe
  · exact startDebounce_accountsSafe safe _ _

theorem ownSetInput_accountsSafe (safe : s.AccountsSafe) (r : InputRequest) : (ownSetInput r s).1.AccountsSafe := by
  have stored : ∀ inputs, State.AccountsSafe { s with inputs := inputs } := fun _ => safe
  unfold ownSetInput configureInput
  split
  · exact safe
  · dsimp only
    split
    · exact levelChange_accountsSafe (stored _) _
    · split
      · split
        · exact startDebounce_accountsSafe (stored _) _ _
        · exact safe
      · exact safe

theorem commitCandidate_accountsSafe (safe : s.AccountsSafe) : (commitCandidate s).AccountsSafe := by
  unfold commitCandidate
  split
  · exact safe
  · exact endEvent_accountsSafe (deriveEffective_accountsSafe (commit_accountsSafe safe _))

theorem placeHint_accountsSafe (safe : s.AccountsSafe) (hint : Option Hint) : (placeHint hint s).AccountsSafe := by
  unfold placeHint
  split
  · exact safe
  · exact endEvent_accountsSafe (deriveEffective_accountsSafe (s := { s with hint := hint }) safe)

/-- A hint is refused, or placed in the slot (R32 to R35). -/
theorem ownPostureHint_accountsSafe (safe : s.AccountsSafe) (port : Port) (code : HintCode) :
    (ownPostureHint port code s).1.AccountsSafe := by
  cases code with
  | unsettled => exact safe
  | noHint =>
    rw [ownPostureHint_noHint]
    split
    · exact safe
    · exact placeHint_accountsSafe safe _
  | place h =>
    rw [ownPostureHint_place]
    split
    · exact safe
    · exact placeHint_accountsSafe safe _

/-! ## Profile table and domains (R47, R48, R88) -/

/-- A re-selection shows what the switch of its account leaves (R48). -/
theorem reselectDomain_offered (d : DomainId) (s : State) : Offered (accountSwitch d s) (reselectDomain d s) := by
  have congr : ∀ {s t}, Offered s t → Offered (accountSwitch d s) (accountSwitch d t) :=
    settleAccount_congr
      (next := fun u =>
        (u.accounts.get d).switched ((u.profile.get d).get u.column) (u.domains.get d).recover)
      fun _ => rfl
  exact Offered.inAnyOrder_cons congr [recomputeShares]
    (by simpa only [List.forall_mem_singleton] using recomputeShares_offered) s

/-- The entries in use once an entry is stored: the stored one where it belongs to the column in use (R47). -/
theorem inUse_storedEntry (d : DomainId) (c : Column) (e : Entry) (s : State) :
    State.inUse { s with profile := s.profile.set d ((s.profile.get d).set c e) }
      = if c = s.column then Function.update s.inUse d e else s.inUse := by
  funext d'
  by_cases own : d' = d
  · subst own
    by_cases used : c = s.column
    · simp [State.inUse, used]
    · simp [State.inUse, used, Ne.symm used]
  · by_cases used : c = s.column <;> simp [State.inUse, used, own]

/-- A changed entry of the column in use reaches its account; an entry of another column, or the one that stood, is none
that an account holds (R47, R48). -/
theorem storeEntry_accountsSafe (safe : s.AccountsSafe) (d : DomainId) (c : Column) (e : Entry) :
    (storeEntry d c e s).AccountsSafe := by
  have inUse := inUse_storedEntry d c e s
  have holds : State.Holds { s with profile := s.profile.set d ((s.profile.get d).set c e) } s.inUse := safe
  unfold storeEntry
  dsimp only
  split
  · rename_i changed
    obtain ⟨used, _⟩ := changed
    refine endEvent_accountsSafe ((reselectDomain_offered d _).accountsSafe ?_)
    refine (accountSwitch_limited d _).switched.accountsSafe_of_holds ?_
    have switched := accountSwitch_holds holds d
    rw [inUse, if_pos used] at switched ⊢
    simpa using switched
  · rename_i unchanged
    rw [accountsSafe_iff, inUse]
    split
    · rename_i used
      have same : e = s.inUse d := of_not_not fun other => unchanged ⟨used, used ▸ other⟩
      rw [same, Function.update_eq_self]
      exact holds
    · exact holds

theorem ownSetProfile_accountsSafe (safe : s.AccountsSafe) (r : ProfileRequest) :
    (ownSetProfile r s).1.AccountsSafe := by
  unfold ownSetProfile
  split
  · split
    · exact storeEntry_accountsSafe safe _ _ _
    · exact safe
  · exact safe

theorem onlyIf_offered {f : State → State} (h : ∀ s, Offered s (f s)) (c : Bool) (s : State) :
    Offered s (onlyIf c f s) := by
  cases c
  · rfl
  · exact h s

theorem onlyIf_congr {f : State → State} (congr : ∀ {s t}, Offered s t → Offered (f s) (f t)) (c : Bool) {s t : State}
    (k : Offered s t) : Offered (onlyIf c f s) (onlyIf c f t) := by
  cases c
  · exact k
  · exact congr k

/-- A domain's record is stored, and a changed recover percent reaches the account (R88). -/
theorem recoverStored_accountsSafe (safe : s.AccountsSafe) (d : DomainId) (r : DomainRecord) :
    (onlyIf (r.recover != (s.domains.get d).recover) (accountRecover d)
      { s with domains := s.domains.set d r }).AccountsSafe := by
  cases changed : r.recover != (s.domains.get d).recover with
  | false =>
    have same : r.recover = (s.domains.get d).recover := by simpa using changed
    have recover : ∀ d', ((s.domains.set d r).get d').recover = (s.domains.get d').recover := by
      intro d'
      rw [PerDomain.get_set]
      split
      · rename_i own
        rw [same, own]
      · rfl
    intro d'
    have fits := safe d'
    rwa [← recover] at fits
  | true =>
    refine (accountRecover_limited d _).switched.accountsSafe_of_holds (settleAccount_holds ?_ fun d' other => ?_)
    · exact (safe d).recovered _
    · rw [PerDomain.get_set_of_ne _ _ _ _ other]
      exact safe d'

/-- Of the effects of a changed domain record only the one on the account shows; the others are offers (R114). -/
theorem configureDomain_accountsSafe (safe : s.AccountsSafe) (d : DomainId) (r : DomainRecord) :
    (configureDomain d r s).AccountsSafe := by
  have congr : ∀ {s t}, Offered s t → Offered (accountRecover d s) (accountRecover d t) :=
    settleAccount_congr
      (next := fun u => Account.ruled
        { u.accounts.get d with
          threshold := recoverThreshold (u.accounts.get d).capacity (u.domains.get d).recover })
      fun _ => rfl
  unfold configureDomain
  dsimp only
  split
  · exact safe
  · refine endEvent_accountsSafe ((Offered.inAnyOrder_cons (onlyIf_congr congr _) _ ?_ _).accountsSafe
      (recoverStored_accountsSafe safe d r))
    simp only [List.mem_cons, List.not_mem_nil, or_false]
    rintro f (rfl | rfl | rfl) t
    · exact onlyIf_offered recomputeShares_offered _ t
    · exact onlyIf_offered (resolve_offered d) _ t
    · exact onlyIf_offered (f := zeroCounts d) (fun _ => rfl) _ t

theorem ownSetDomain_accountsSafe (safe : s.AccountsSafe) (r : DomainRequest) : (ownSetDomain r s).1.AccountsSafe := by
  unfold ownSetDomain
  split
  · exact safe
  · split
    · exact configureDomain_accountsSafe safe _ _
    · exact safe

theorem ownSetCap_accountsSafe (safe : s.AccountsSafe) (port : Port) (r : CapRequest) :
    (ownSetCap port r s).1.AccountsSafe := by
  unfold ownSetCap storeCap
  split
  · exact safe
  · dsimp only
    split
    · exact safe
    · exact endEvent_accountsSafe ((offerCaps_offered _ _).accountsSafe safe)

/-! ## Supply, lines and mode -/

theorem ownSetSupplyConfig_accountsSafe (safe : s.AccountsSafe) (c : SupplyConfig) :
    (ownSetSupplyConfig c s).1.AccountsSafe := by
  unfold ownSetSupplyConfig configureSupply
  split
  · dsimp only
    split
    · exact safe
    · exact endEvent_accountsSafe ((recomputeShares_offered _).accountsSafe safe)
  · exact safe

theorem ownSupplyReport_accountsSafe (safe : s.AccountsSafe) (r : ReportRequest) :
    (ownSupplyReport r s).1.AccountsSafe :=
  endEvent_accountsSafe ((recomputeShares_offered _).accountsSafe safe)

theorem supplyTrips_accountsSafe (safe : s.AccountsSafe) : (supplyTrips s).AccountsSafe := by
  refine endEvent_accountsSafe (occurFatal_accountsSafe ?_ _ _ _)
  exact safe

theorem lineSticks_accountsSafe (safe : s.AccountsSafe) (l : LineId) : (lineSticks l s).AccountsSafe :=
  endEvent_accountsSafe (occurFatal_accountsSafe (s := setLineRecord l _ s) safe _ _ _)

theorem ownSetRouting_accountsSafe (safe : s.AccountsSafe) (r : RoutingRequest) :
    (ownSetRouting r s).1.AccountsSafe := by
  unfold ownSetRouting configureLine
  split
  · exact safe
  · split
    · dsimp only
      split
      · exact safe
      · exact (endEventWith_ended _ (setLineRecord _ _ s)).accountsSafe safe
    · exact safe

theorem ownForceLine_accountsSafe (safe : s.AccountsSafe) (r : ForceRequest) : (ownForceLine r s).1.AccountsSafe := by
  unfold ownForceLine
  split
  · exact safe
  · dsimp only
    split
    · exact safe
    · exact endEvent_accountsSafe (s := setLineRecord _ _ s) safe

/-- ACTIVATE fails one of its checks, or changes the mode (R150, R151). -/
theorem ownActivate_accountsSafe (safe : s.AccountsSafe) (u : Unit) : (ownActivate u s).1.AccountsSafe := by
  have active : (becomeActive s).AccountsSafe :=
    endEvent_accountsSafe (deriveColumn_accountsSafe (s := raise .mode { s with mode := .active }) safe)
  unfold ownActivate
  split
  · exact safe
  · split
    · exact safe
    · split
      · exact safe
      · split
        · exact safe
        · exact active

theorem ownDeactivate_accountsSafe (safe : s.AccountsSafe) (u : Unit) : (ownDeactivate u s).1.AccountsSafe := by
  unfold ownDeactivate
  split
  · exact endEvent_accountsSafe (leaveActive_accountsSafe safe)
  · exact safe

/-! ## Zones -/

theorem ownSetSkinLimits_accountsSafe (safe : s.AccountsSafe) (r : SkinRequest) :
    (ownSetSkinLimits r s).1.AccountsSafe := by
  unfold ownSetSkinLimits storeLimits
  split
  · exact safe
  · split
    · dsimp only
      split
      · exact safe
      · refine endEvent_accountsSafe (reselectZone_accountsSafe ?_ _)
        exact safe
    · exact safe

theorem ownSetLadder_accountsSafe (safe : s.AccountsSafe) (r : LadderRequest) :
    (ownSetLadder r s).1.AccountsSafe := by
  unfold ownSetLadder configureLadder
  split
  · exact safe
  · split
    · dsimp only
      split
      · exact safe
      · split
        · exact endEvent_accountsSafe (recomputeThermal_accountsSafe (s := moveTo _ _ _) safe)
        · exact endEvent_accountsSafe (recomputeThermal_accountsSafe (s := setZoneRecord _ _ s) safe)
    · exact safe

theorem leaveZone_accountsSafe (safe : s.AccountsSafe) (z : ZoneId) (v : Zone) : (leaveZone z v s).AccountsSafe := by
  unfold leaveZone
  dsimp only
  split <;> split <;> exact safe

theorem configureZone_accountsSafe (safe : s.AccountsSafe) (z : ZoneId) (cfg : ZoneConfig) :
    (configureZone z cfg s).AccountsSafe := by
  have restarted : ∀ v w,
      (endEvent (recomputeThermal (followSources z (leaveZone z v (setZoneRecord z w s))))).AccountsSafe := fun v w =>
    endEvent_accountsSafe (recomputeThermal_accountsSafe (followSources_accountsSafe
      (leaveZone_accountsSafe (s := setZoneRecord z w s) safe z v) z))
  unfold configureZone
  dsimp only
  split
  · exact safe
  · split
    · exact safe
    · exact restarted _ _
    · exact restarted _ _

theorem ownSetZone_accountsSafe (safe : s.AccountsSafe) (r : ZoneRequest) : (ownSetZone r s).1.AccountsSafe := by
  unfold ownSetZone
  split
  · split
    · exact configureZone_accountsSafe safe _ _
    · exact safe
  · exact safe

end Sys2Proof.Machine

/-! # Every step keeps the accounts (R76 to R79, R81, R82, R84, R85, R88) -/

namespace Sys2Proof.Machine

open Sys2Proof

/-- A request keeps the accounts safe where its owner does. -/
theorem request_accountsSafe {α : Type} {kind : Kind} {call : Call} {shape : List Byte → Option α}
    {owner : Port → α → State → State × Reply} {body : List Byte} {s t : State} (safe : s.AccountsSafe)
    (own : ∀ r, (owner call.port r s).1.AccountsSafe)
    (h : atPort call (fun port => takeRequest kind port shape (owner port) body) s = .next t) : t.AccountsSafe :=
  atPort_keeps State.AccountsSafe call _ s t safe
    (takeRequest_keeps State.AccountsSafe (fun _ _ h => h) kind call.port shape (owner call.port) body s safe
      fun _ r _ _ => own r) h

/-- Every bus transaction keeps the accounts safe. -/
theorem transaction_accountsSafe (i : Instr) (s t : State) (hc : (callOf i).isSome = true) (safe : s.AccountsSafe)
    (h : exec i s = .next t) : t.AccountsSafe := by
  cases i <;> simp only [exec] at h
  case badFrame call bytes =>
    exact atPort_keeps _ _ _ s t safe (takeWrite_keeps State.AccountsSafe (fun _ _ h => h) _ _ _ s safe fun _ _ => safe) h
  case unknown call kind body =>
    refine atPort_keeps _ _ _ s t safe
      (takeWrite_keeps State.AccountsSafe (fun _ _ h => h) _ _ _ s safe fun received _ => ?_) h
    split <;> exact safe
  case replyRead call clocked => exact atPort_keeps State.AccountsSafe _ _ s t safe safe h
  case identify call body =>
    exact request_accountsSafe (owner := fun port _ u => (u, ⟨.ok, identifyFields port u⟩)) safe (fun _ => safe) h
  case readStatus call body =>
    exact request_accountsSafe (owner := fun _ _ u => (u, ⟨.ok, statusFields u⟩)) safe (fun _ => safe) h
  case readGrants call body =>
    exact request_accountsSafe (owner := fun _ _ u => (u, ⟨.ok, grantsFields u⟩)) safe (fun _ => safe) h
  case readDomain call body =>
    refine request_accountsSafe (owner := fun _ => ownReadDomain) safe (fun r => ?_) h
    unfold ownReadDomain
    split
    · exact safe
    · split <;> exact safe
  case readZone call body =>
    refine request_accountsSafe (owner := fun _ => ownReadZone) safe (fun r => ?_) h
    unfold ownReadZone
    split <;> exact safe
  case readChannel call body =>
    refine request_accountsSafe (owner := fun _ => ownReadChannel) safe (fun r => ?_) h
    unfold ownReadChannel
    split <;> split <;> exact safe
  case readFaults call body =>
    exact request_accountsSafe (owner := fun _ start u => (u, ⟨.ok, faultsFields start u.faults⟩)) safe
      (fun _ => safe) h
  case readNotices call body => exact request_accountsSafe (owner := ownReadNotices) safe (fun _ => safe) h
  case clearNotices call body => exact request_accountsSafe (owner := ownClearNotices) safe (fun _ => safe) h
  case setNoticeMask call body => exact request_accountsSafe (owner := ownSetNoticeMask) safe (fun _ => safe) h
  case clearFaults call body => exact request_accountsSafe (owner := fun _ => ownClearFaults) safe (fun _ => safe) h
  case setChannel call body =>
    exact request_accountsSafe (owner := fun _ => ownSetChannel) safe (ownSetChannel_accountsSafe safe) h
  case setPowerChannel call body =>
    exact request_accountsSafe (owner := fun _ => ownSetPowerChannel) safe (ownSetPowerChannel_accountsSafe safe) h
  case setInput call body =>
    exact request_accountsSafe (owner := fun _ => ownSetInput) safe (ownSetInput_accountsSafe safe) h
  case setPostureTiming call body =>
    exact request_accountsSafe (owner := fun _ => ownSetPostureTiming) safe (fun _ => safe) h
  case setZone call body =>
    exact request_accountsSafe (owner := fun _ => ownSetZone) safe (ownSetZone_accountsSafe safe) h
  case setLadder call body =>
    exact request_accountsSafe (owner := fun _ => ownSetLadder) safe (ownSetLadder_accountsSafe safe) h
  case setProfile call body =>
    exact request_accountsSafe (owner := fun _ => ownSetProfile) safe (ownSetProfile_accountsSafe safe) h
  case setSkinLimits call body =>
    exact request_accountsSafe (owner := fun _ => ownSetSkinLimits) safe (ownSetSkinLimits_accountsSafe safe) h
  case setDomain call body =>
    exact request_accountsSafe (owner := fun _ => ownSetDomain) safe (ownSetDomain_accountsSafe safe) h
  case setRouting call body =>
    exact request_accountsSafe (owner := fun _ => ownSetRouting) safe (ownSetRouting_accountsSafe safe) h
  case setSupplyConfig call body =>
    exact request_accountsSafe (owner := fun _ => ownSetSupplyConfig) safe (ownSetSupplyConfig_accountsSafe safe) h
  case supplyReport call body =>
    exact request_accountsSafe (owner := fun _ => ownSupplyReport) safe (ownSupplyReport_accountsSafe safe) h
  case setCap call body =>
    exact request_accountsSafe (owner := ownSetCap) safe (ownSetCap_accountsSafe safe call.port) h
  case postureHint call body =>
    exact request_accountsSafe (owner := ownPostureHint) safe (ownPostureHint_accountsSafe safe call.port) h
  case forceLine call body =>
    exact request_accountsSafe (owner := fun _ => ownForceLine) safe (ownForceLine_accountsSafe safe) h
  case activate call body =>
    exact request_accountsSafe (owner := fun _ => ownActivate) safe (ownActivate_accountsSafe safe) h
  case deactivate call body =>
    exact request_accountsSafe (owner := fun _ => ownDeactivate) safe (ownDeactivate_accountsSafe safe) h
  all_goals simp [callOf, requestParts] at hc

theorem accountsSafe_reset : State.reset.AccountsSafe := by
  intro d
  cases d <;> simp [State.reset, Account.Safe, resetAccount, resetDomain, resetProfile, PerDomain.get,
    PerColumn.get]

/-- An event keeps the accounts safe where its effect outside a reset does. -/
theorem outsideReset_accountsSafe {f : State → State} {s t : State} (safe : s.AccountsSafe) (own : (f s).AccountsSafe)
    (h : outsideReset f s = .next t) : t.AccountsSafe :=
  outsideReset_keeps State.AccountsSafe f s t safe own h

/-- Every event keeps the accounts safe. -/
theorem event_accountsSafe (i : Instr) (s t : State) (hc : callOf i = none) (safe : s.AccountsSafe)
    (h : exec i s = .next t) : t.AccountsSafe := by
  have due : ∀ w, (await w s).AccountsSafe := await_accountsSafe safe
  cases i <;> simp only [exec] at h
  case reset edge pins lines => cases edge <;> cases h <;> exact accountsSafe_reset
  case intervalTimerExpiry c =>
    refine outsideReset_accountsSafe safe ?_ h
    split
    · exact safe
    · rename_i w _
      exact requestConversion_accountsSafe (s := setTempRecord c _ (await w s)) (due w) c
  case conversionEnd result =>
    refine outsideReset_accountsSafe safe ?_ h
    split
    · exact safe
    · rename_i j _
      have idle : State.AccountsSafe { await j.timer s with converter := none } := due j.timer
      refine startConversion_accountsSafe ?_
      split
      · exact idle
      · exact handleOutcome_accountsSafe idle j result
  case sampleArrival n sample =>
    refine outsideReset_accountsSafe safe ?_ h
    refine deliver_accountsSafe (reportPower_accountsSafe ?_ n _ _) n _ _
    exact due (s.powers.get n).timer
  case tripTimerExpiry =>
    refine outsideReset_accountsSafe safe ?_ h
    split
    · exact supplyTrips_accountsSafe (due _)
    · exact safe
    · exact safe
  case inputLevelChange l high =>
    refine outsideReset_accountsSafe safe ?_ h
    dsimp only
    split
    · exact safe
    · refine levelChange_accountsSafe ?_ l
      exact safe
  case debounceExpiry l =>
    refine outsideReset_accountsSafe safe ?_ h
    split
    · exact safe
    · exact takeLevel_accountsSafe (due _) l _
  case dwellExpiry =>
    refine outsideReset_accountsSafe safe ?_ h
    split
    · exact safe
    · exact commitCandidate_accountsSafe (due _)
  case zoneUpdate z =>
    refine outsideReset_accountsSafe safe ?_ h
    split
    · exact safe
    · rename_i w _
      have restarted : ∀ v, (setZoneRecord z v (await w s)).AccountsSafe := fun _ => due w
      dsimp only
      split
      · exact restarted _
      · exact endEvent_accountsSafe (updateZone_accountsSafe (restarted _) z _)
  case settleTimerExpiry d =>
    refine outsideReset_accountsSafe safe ?_ h
    split
    · exact safe
    · rename_i w _
      exact due w
  case sensedLevelChange l high =>
    refine outsideReset_accountsSafe safe ?_ h
    dsimp only
    split
    · exact safe
    · exact (compareLine_ended l .sensed (setLineRecord l _ s)).accountsSafe safe
  case readbackWindowExpiry l =>
    refine outsideReset_accountsSafe safe ?_ h
    split
    · exact safe
    · exact lineSticks_accountsSafe (due _) l
  all_goals simp [callOf, requestParts] at hc

theorem exec_accountsSafe (i : Instr) (s t : State) (safe : s.AccountsSafe) (h : exec i s = .next t) :
    t.AccountsSafe := by
  cases hc : callOf i with
  | none => exact event_accountsSafe i s t hc safe h
  | some call => exact transaction_accountsSafe i s t (by simp [hc]) safe h

/-- Settles O55: time leaves the accounts, and every command keeps them safe. -/
theorem everyStepKeepsTheAccounts : Obligations.EveryStepKeepsTheAccounts := fun s t safe e =>
  step_keeps (fun _ _ h => h) (fun _ h => h) exec_accountsSafe s t safe e

end Sys2Proof.Machine

/-! # The shares are served by priority (R99, R101) -/

namespace Sys2Proof.Machine

open Sys2Proof

/-! ## The order of service (R99) -/

/-- The order of service: a smaller priority first, a shared one by domain number. -/
def ServedBefore (priority : DomainId → Nat) (x y : DomainId) : Prop :=
  priority x < priority y ∨ (priority x = priority y ∧ x.number < y.number)

theorem ServedBefore.trans {priority : DomainId → Nat} {x y z : DomainId} (hxy : ServedBefore priority x y)
    (hyz : ServedBefore priority y z) : ServedBefore priority x z := by
  unfold ServedBefore at *
  omega

theorem ServedBefore.asymm {priority : DomainId → Nat} {x y : DomainId} (hxy : ServedBefore priority x y) :
    ¬ServedBefore priority y x := by
  unfold ServedBefore at *
  omega

theorem ServedBefore.ne {priority : DomainId → Nat} {x y : DomainId} (hxy : ServedBefore priority x y) : x ≠ y :=
  fun same => hxy.asymm (same ▸ hxy)

theorem insertByPriority_perm (priority : DomainId → Nat) (d : DomainId) (order : List DomainId) :
    (insertByPriority priority d order).Perm (d :: order) := by
  induction order with
  | nil => exact .refl _
  | cons e rest ih =>
    unfold insertByPriority
    split
    · exact .refl _
    · exact (ih.cons e).trans (.swap d e rest)

/-- The insertion goes behind equal priorities, so it keeps the order where the new domain has the largest number. -/
theorem insertByPriority_pairwise {priority : DomainId → Nat} {d : DomainId} {order : List DomainId}
    (sorted : order.Pairwise (ServedBefore priority)) (largest : ∀ e ∈ order, e.number < d.number) :
    (insertByPriority priority d order).Pairwise (ServedBefore priority) := by
  induction order with
  | nil => exact List.pairwise_singleton _ d
  | cons e rest ih =>
    obtain ⟨first, sortedRest⟩ := List.pairwise_cons.mp sorted
    unfold insertByPriority
    split
    next less =>
      have before : ServedBefore priority d e := .inl less
      refine List.pairwise_cons.mpr ⟨fun x hx => ?_, sorted⟩
      obtain rfl | hx := List.mem_cons.mp hx
      · exact before
      · exact before.trans (first x hx)
    next notLess =>
      have before : ServedBefore priority e d := by
        have := largest e List.mem_cons_self
        unfold ServedBefore
        omega
      refine List.pairwise_cons.mpr ⟨fun x hx => ?_, ih sortedRest fun x hx => largest x (.tail e hx)⟩
      obtain rfl | hx := List.mem_cons.mp ((insertByPriority_perm priority d rest).mem_iff.mp hx)
      · exact before
      · exact first x hx

theorem foldl_insertByPriority_perm (priority : DomainId → Nat) (ds order : List DomainId) :
    (ds.foldl (fun order d => insertByPriority priority d order) order).Perm (ds ++ order) := by
  induction ds generalizing order with
  | nil => exact .refl _
  | cons d ds ih => exact (ih _).trans (((insertByPriority_perm priority d order).append_left ds).trans List.perm_middle)

theorem foldl_insertByPriority_pairwise {priority : DomainId → Nat} {ds order : List DomainId}
    (byNumber : ds.Pairwise fun x y => x.number < y.number) (sorted : order.Pairwise (ServedBefore priority))
    (larger : ∀ d ∈ ds, ∀ e ∈ order, e.number < d.number) :
    (ds.foldl (fun order d => insertByPriority priority d order) order).Pairwise (ServedBefore priority) := by
  induction ds generalizing order with
  | nil => exact sorted
  | cons d ds ih =>
    obtain ⟨least, byNumber⟩ := List.pairwise_cons.mp byNumber
    refine ih byNumber (insertByPriority_pairwise sorted (larger d List.mem_cons_self)) fun x hx e he => ?_
    obtain rfl | he := List.mem_cons.mp ((insertByPriority_perm priority d order).mem_iff.mp he)
    · exact least x hx
    · exact larger x (.tail d hx) e he

theorem DomainId.all_pairwise_number : DomainId.all.Pairwise fun x y => x.number < y.number := by decide

/-- Three domains in the order of service are all three, so the order of service is theirs: a list has one sorting. -/
theorem serviceOrder_eq {records : PerDomain DomainRecord} {a b c : DomainId}
    (hab : ServedBefore (fun d => (records.get d).priority) a b)
    (hbc : ServedBefore (fun d => (records.get d).priority) b c) :
    serviceOrder records = [a, b, c].filter fun d => (records.get d).arbitrated := by
  have sorted : [a, b, c].Pairwise (ServedBefore fun d => (records.get d).priority) := by
    simp [hab, hbc, hab.trans hbc]
  have allThree : DomainId.all.Perm [a, b, c] :=
    ((List.subperm_of_subset (sorted.imp ServedBefore.ne) fun d _ => d.mem_all).perm_of_length_le le_rfl).symm
  have served : (serviceOrder records).Perm (DomainId.all.filter fun d => (records.get d).arbitrated) := by
    simpa [serviceOrder] using foldl_insertByPriority_perm (fun d => (records.get d).priority)
      (DomainId.all.filter fun d => (records.get d).arbitrated) []
  exact (served.trans (allThree.filter _)).eq_of_pairwise
    (fun _ _ _ _ hxy hyx => absurd hyx hxy.asymm)
    (foldl_insertByPriority_pairwise (DomainId.all_pairwise_number.filter _) .nil (by simp))
    (sorted.filter _)

/-! ## The two passes (R101) -/

namespace Serving

@[simp] theorem give_remaining (v : Serving) (d : DomainId) (amount : Nat) :
    (v.give d amount).remaining = v.remaining - min amount v.remaining := rfl

@[simp] theorem give_given_self (v : Serving) (d : DomainId) (amount : Nat) :
    (v.give d amount).given.get d = v.given.get d + min amount v.remaining := by
  simp [give]

theorem give_given_of_ne (v : Serving) {d e : DomainId} (amount : Nat) (h : e ≠ d) :
    (v.give d amount).given.get e = v.given.get e := by
  simp [give, h]

@[simp] theorem give_zero (v : Serving) (d : DomainId) : v.give d 0 = v := by
  simp [give]

end Serving

/-- What each domain asks of the pool: its demand where it is arbitrated, and nothing where it is not. -/
def askedOf (records : PerDomain DomainRecord) (demand : PerDomain Nat) : PerDomain Nat :=
  .ofFn fun d => if (records.get d).arbitrated then demand.get d else 0

@[simp] theorem get_askedOf (records : PerDomain DomainRecord) (demand : PerDomain Nat) (d : DomainId) :
    (askedOf records demand).get d = if (records.get d).arbitrated then demand.get d else 0 :=
  PerDomain.get_ofFn _ d

/-- To skip a domain that is not arbitrated is to serve it with a demand of nothing. -/
theorem floorPass_filter (records : PerDomain DomainRecord) (floor demand : PerDomain Nat) (ds : List DomainId)
    (v : Serving) :
    floorPass floor demand (ds.filter fun d => (records.get d).arbitrated) v
      = floorPass floor (askedOf records demand) ds v := by
  induction ds generalizing v with
  | nil => rfl
  | cons d ds ih =>
    cases h : (records.get d).arbitrated <;> simp [h, floorPass, ih]

/-- To skip a domain that is not arbitrated is to serve it with a demand of nothing. -/
theorem extraPass_filter (records : PerDomain DomainRecord) (demand : PerDomain Nat) (ds : List DomainId) (v : Serving) :
    extraPass demand (ds.filter fun d => (records.get d).arbitrated) v = extraPass (askedOf records demand) ds v := by
  induction ds generalizing v with
  | nil => rfl
  | cons d ds ih =>
    cases h : (records.get d).arbitrated <;> simp [h, extraPass, ih]

/-- Both passes over domains in an order, from a whole pool of which nothing is given. -/
def bothPasses (pool : Nat) (floor asks : PerDomain Nat) (order : List DomainId) : Serving :=
  extraPass asks order (floorPass floor asks order { remaining := pool, given := ⟨0, 0, 0⟩ })

theorem sharesOf_get {pool : Nat} {records : PerDomain DomainRecord} {demand : PerDomain Nat} {order : List DomainId}
    (ordered : serviceOrder records = order.filter fun d => (records.get d).arbitrated) (d : DomainId) :
    (sharesOf pool records demand).get d = if (records.get d).arbitrated then
      some ((bothPasses pool (records.map (·.floor)) (askedOf records demand) order).given.get d) else none := by
  simp only [sharesOf, PerDomain.get_ofFn, ordered, floorPass_filter, extraPass_filter, bothPasses]

/-- Three domains served in turn from what remains, each given its amount as far as it remains. -/
theorem Serving.give_three {v : Serving} {a b c : DomainId} {x y z ga gb gc : Nat} (ab : a ≠ b) (ac : a ≠ c) (bc : b ≠ c)
    (hga : ga = min x v.remaining) (hgb : gb = min y (v.remaining - ga)) (hgc : gc = min z (v.remaining - ga - gb)) :
    let w := ((v.give a x).give b y).give c z
    w.remaining = v.remaining - ga - gb - gc ∧ w.given.get a = v.given.get a + ga ∧
      w.given.get b = v.given.get b + gb ∧ w.given.get c = v.given.get c + gc := by
  simp [give_given_of_ne, ab, ac, bc, ab.symm, ac.symm, bc.symm, ← hga, ← hgb, ← hgc]

/-- The floor pass over three domains. -/
theorem floorPass_three {floor asks : PerDomain Nat} {v : Serving} {a b c : DomainId} {fa fb fc : Nat}
    (ab : a ≠ b) (ac : a ≠ c) (bc : b ≠ c) (hfa : fa = min (min (floor.get a) (asks.get a)) v.remaining)
    (hfb : fb = min (min (floor.get b) (asks.get b)) (v.remaining - fa))
    (hfc : fc = min (min (floor.get c) (asks.get c)) (v.remaining - fa - fb)) :
    let w := floorPass floor asks [a, b, c] v
    w.remaining = v.remaining - fa - fb - fc ∧ w.given.get a = v.given.get a + fa ∧
      w.given.get b = v.given.get b + fb ∧ w.given.get c = v.given.get c + fc :=
  Serving.give_three ab ac bc hfa hfb hfc

/-- The extra pass over three domains: what one is given leaves what the next had been given as it was. -/
theorem extraPass_three {asks : PerDomain Nat} {v : Serving} {a b c : DomainId} {ea eb ec : Nat}
    (ab : a ≠ b) (ac : a ≠ c) (bc : b ≠ c) (hea : ea = min (asks.get a - v.given.get a) v.remaining)
    (heb : eb = min (asks.get b - v.given.get b) (v.remaining - ea))
    (hec : ec = min (asks.get c - v.given.get c) (v.remaining - ea - eb)) :
    let w := extraPass asks [a, b, c] v
    w.given.get a = v.given.get a + ea ∧ w.given.get b = v.given.get b + eb ∧ w.given.get c = v.given.get c + ec := by
  refine (Serving.give_three ab ac bc hea ?_ ?_).2
  · rwa [Serving.give_given_of_ne _ _ ab.symm]
  · rwa [Serving.give_given_of_ne _ _ bc.symm, Serving.give_given_of_ne _ _ ac.symm]

theorem PerDomain.get_zeros (d : DomainId) : (⟨0, 0, 0⟩ : PerDomain Nat).get d = 0 := by
  cases d <;> rfl

/-- Each of three domains ends with its floor amount and its extra amount. -/
theorem bothPasses_three {pool : Nat} {floor asks : PerDomain Nat} {a b c : DomainId} {fa fb fc ea eb ec : Nat}
    (ab : a ≠ b) (ac : a ≠ c) (bc : b ≠ c) (hfa : fa = min (min (floor.get a) (asks.get a)) pool)
    (hfb : fb = min (min (floor.get b) (asks.get b)) (pool - fa))
    (hfc : fc = min (min (floor.get c) (asks.get c)) (pool - fa - fb))
    (hea : ea = min (asks.get a - fa) (pool - fa - fb - fc))
    (heb : eb = min (asks.get b - fb) (pool - fa - fb - fc - ea))
    (hec : ec = min (asks.get c - fc) (pool - fa - fb - fc - ea - eb)) :
    let w := bothPasses pool floor asks [a, b, c]
    w.given.get a = fa + ea ∧ w.given.get b = fb + eb ∧ w.given.get c = fc + ec := by
  obtain ⟨remaining, givenA, givenB, givenC⟩ :=
    floorPass_three (v := { remaining := pool, given := ⟨0, 0, 0⟩ }) ab ac bc hfa hfb hfc
  simp only [PerDomain.get_zeros, Nat.zero_add] at givenA givenB givenC
  have extra := extraPass_three (asks := asks) (ea := ea) (eb := eb) (ec := ec) ab ac bc
    (by rwa [remaining, givenA]) (by rwa [remaining, givenB]) (by rwa [remaining, givenC])
  rwa [givenA, givenB, givenC] at extra

/-- Three amounts served in turn come to no more than there was. -/
theorem served_in_turn_le (pool x y z : Nat) :
    min x pool + min y (pool - min x pool) + min z (pool - min x pool - min y (pool - min x pool)) ≤ pool := by
  omega

/-- An amount of the floor and a further one of what is still asked come to no more than is asked. -/
theorem floor_add_extra_le (floor asks left rest : Nat) :
    min (min floor asks) left + min (asks - min (min floor asks) left) rest ≤ asks := by
  omega

/-- Settles O35: the order of service is the one of priority and number, in which the two passes are evaluated. -/
theorem sharesAreServedByPriority : Obligations.SharesAreServedByPriority := by
  intro pool records demand a b c earlier hab hbc asks floor fa fb fc rest ea eb ec share
  have hab : ServedBefore (fun d => (records.get d).priority) a b := hab
  have hbc : ServedBefore (fun d => (records.get d).priority) b c := hbc
  have asked : ∀ d, (askedOf records demand).get d = asks d := get_askedOf records demand
  have floored : ∀ d, min ((records.map (·.floor)).get d) ((askedOf records demand).get d) = floor d := fun d => by
    rw [PerDomain.get_map, asked]
  obtain ⟨givenA, givenB, givenC⟩ := bothPasses_three (pool := pool) (floor := records.map (·.floor))
    (asks := askedOf records demand) (fa := fa) (fb := fb) (fc := fc) (ea := ea) (eb := eb) (ec := ec)
    hab.ne (hab.trans hbc).ne hbc.ne (by rw [floored]) (by rw [floored]) (by rw [floored]) (by rw [asked])
    (by rw [asked]) (by rw [asked])
  have shared : ∀ d, (sharesOf pool records demand).get d = share d _ := sharesOf_get (serviceOrder_eq hab hbc)
  have floors : fa + fb + fc ≤ pool := served_in_turn_le _ _ _ _
  have extras : ea + eb + ec ≤ rest := served_in_turn_le _ _ _ _
  have asks_le : ∀ d, asks d ≤ demand.get d := fun d => by
    dsimp only [asks]
    split
    · exact le_rfl
    · exact Nat.zero_le _
  have total : (fa + ea) + (fb + eb) + (fc + ec) ≤ pool := by
    have left : rest = pool - fa - fb - fc := rfl
    omega
  exact ⟨by rw [shared, givenA], by rw [shared, givenB], by rw [shared, givenC], total,
    (floor_add_extra_le _ _ _ _).trans (asks_le a), (floor_add_extra_le _ _ _ _).trans (asks_le b),
    (floor_add_extra_le _ _ _ _).trans (asks_le c)⟩

end Sys2Proof.Machine

/-! # The record of a throttle line: what derivation and comparison keep of R129 to R132 and R137 to R139 -/

namespace Sys2Proof.Machine

open Sys2Proof

/-! ## The parts of line safety -/

/-- View, drive, cause and pin follow these sources and the manual level (R129, R131, R132). -/
def ThrottleLine.Follows (v : ThrottleLine) (view : SourceView) : Prop :=
  v.view = view ∧ v.drive = driveOf view v.manual ∧ v.cause = causeOf view v.manual ∧
    v.pinOut = pinOutOf v.cfg.output v.cfg.polarity v.drive

/-- What a comparison takes from a record: a valid output, the sensed level, and no window timer under LINE_STUCK
(R130, R135, R139). -/
def ThrottleLine.Comparable (v : ThrottleLine) : Prop :=
  outputValid v.cfg = true ∧ v.sensed = interpret v.cfg.polarity v.pinHigh ∧ (v.stuck = true → v.window = none)

/-- What a comparison leaves in a record: external assertion, LINE_STUCK and the window timer are those of its drive and
sensed level (R137, R138). -/
def ThrottleLine.Compared (v : ThrottleLine) : Prop :=
  v.external = externalOf v.cfg.output v.drive v.sensed ∧
    (v.stuck = true → mismatch v.cfg.output v.drive v.sensed = true) ∧
    v.window.isSome = (mismatch v.cfg.output v.drive v.sensed && !v.stuck)

/-- A record is as its last comparison left it. -/
def ThrottleLine.Settled (v : ThrottleLine) : Prop := v.Comparable ∧ v.Compared

theorem ThrottleLine.safe_iff (v : ThrottleLine) (view : SourceView) : v.Safe view ↔ v.Follows view ∧ v.Settled := by
  constructor
  · rintro ⟨sources, drive, cause, pin, valid, sensed, compared⟩
    have ⟨_, _, window⟩ := compared
    refine ⟨⟨sources, drive, cause, pin⟩, ⟨valid, sensed, fun stuck => ?_⟩, compared⟩
    rwa [stuck, Bool.not_true, Bool.and_false, Option.isSome_eq_false_iff, Option.isNone_iff_eq_none] at window
  · rintro ⟨⟨sources, drive, cause, pin⟩, ⟨valid, sensed, _⟩, compared⟩
    exact ⟨sources, drive, cause, pin, valid, sensed, compared⟩

/-! ## A comparison (R137 to R139) -/

/-- A record after a comparison: a mismatch under LINE_STUCK leaves the window timer as it is, any other starts it or
lets it run; without a mismatch LINE_STUCK ends and the timer goes idle. -/
def ThrottleLine.comparedAfter (event : Comparison) (v : ThrottleLine) : ThrottleLine :=
  let differs := mismatch v.cfg.output v.drive v.sensed
  { v with
    external := externalOf v.cfg.output v.drive v.sensed
    stuck := v.stuck && differs
    window :=
      if differs then if v.stuck then v.window else windowAfterMismatch event v.cfg.window v.window else none }

/-- A comparison stores the compared record. -/
theorem compareLine_lines (l : LineId) (event : Comparison) (s : State) :
    (compareLine l event s).lines = s.lines.set l ((s.lines.get l).comparedAfter event) := by
  unfold compareLine ThrottleLine.comparedAfter
  dsimp only
  split
  · rename_i differs
    split
    · rename_i stuck
      simp [differs, stuck]
    · rename_i free
      simp [differs, free]
  · rename_i agrees
    split
    · simp [agrees]
    · rename_i free
      simp [agrees, free]

theorem windowAfterMismatch_isSome (event : Comparison) (window : Nat) (timer : Option Timer) :
    (windowAfterMismatch event window timer).isSome = true := by
  cases event <;> cases timer <;> rfl

/-- A comparison settles what can be compared. -/
theorem ThrottleLine.Comparable.comparedAfter {v : ThrottleLine} (h : v.Comparable) (event : Comparison) :
    (v.comparedAfter event).Settled := by
  obtain ⟨valid, sensed, idle⟩ := h
  refine ⟨⟨valid, sensed, fun still => ?_⟩, rfl, fun still => ?_, ?_⟩
  · obtain ⟨stuck, differs⟩ := Bool.and_eq_true_iff.mp still
    simp [ThrottleLine.comparedAfter, stuck, differs, idle stuck]
  · exact (Bool.and_eq_true_iff.mp still).2
  · cases differs : mismatch v.cfg.output v.drive v.sensed with
    | false => simp [ThrottleLine.comparedAfter, differs]
    | true =>
      cases stuck : v.stuck with
      | false => simp [ThrottleLine.comparedAfter, differs, stuck, windowAfterMismatch_isSome]
      | true => simp [ThrottleLine.comparedAfter, differs, stuck, idle stuck]

/-! ## A derivation (R129, R131, R132) -/

theorem ThrottleLine.derived_follows (v : ThrottleLine) (view : SourceView) : (v.derived view).Follows view :=
  ⟨rfl, rfl, rfl, rfl⟩

theorem ThrottleLine.Comparable.derived {v : ThrottleLine} (h : v.Comparable) (view : SourceView) :
    (v.derived view).Comparable := h

/-- A derivation that leaves the drive leaves what the last comparison found. -/
theorem ThrottleLine.Settled.derived {v : ThrottleLine} (h : v.Settled) {view : SourceView}
    (same : (v.derived view).drive = v.drive) : (v.derived view).Settled := by
  obtain ⟨comparable, compared⟩ := h
  refine ⟨comparable, ?_⟩
  rw [Compared, same]
  exact compared

/-- The record that the end of an event leaves: derived, and compared where its drive changed or where it is fresh. -/
theorem deriveLine_line (fresh : Bool) (l : LineId) (s : State) :
    let v := s.lines.get l
    let next := v.derived (viewOf s v.cfg.routing)
    (deriveLine fresh l s).lines.get l =
      if next.drive != v.drive || fresh then next.comparedAfter .driven else next := by
  unfold deriveLine
  dsimp only
  split <;> simp [compareLine_lines]

/-- A derivation makes a settled line safe, and a fresh one that can be compared. -/
theorem deriveLine_safe {fresh : Bool} {l : LineId} {s : State} (comparable : (s.lines.get l).Comparable)
    (settled : fresh = false → (s.lines.get l).Settled) :
    ((deriveLine fresh l s).lines.get l).Safe (viewOf s ((deriveLine fresh l s).lines.get l).cfg.routing) := by
  rw [deriveLine_line]
  split
  · exact (ThrottleLine.safe_iff _ _).mpr
      ⟨ThrottleLine.derived_follows _ _, (comparable.derived _).comparedAfter .driven⟩
  · rename_i quiet
    simp only [Bool.or_eq_true, bne_iff_ne, ne_eq, not_or, not_not, Bool.not_eq_true] at quiet
    obtain ⟨same, stale⟩ := quiet
    exact (ThrottleLine.safe_iff _ _).mpr ⟨ThrottleLine.derived_follows _ _, (settled stale).derived same⟩

/-! ## All lines -/

/-- Every line is as its last comparison left it. -/
def State.LinesSettled (s : State) : Prop := ∀ l, (s.lines.get l).Settled

theorem State.LinesSafe.settled {s : State} (safe : s.LinesSafe) : s.LinesSettled := fun l => by
  obtain ⟨_, settled⟩ := (ThrottleLine.safe_iff _ _).mp (safe l)
  exact settled

theorem State.LinesSettled.comparable {s : State} (settled : s.LinesSettled) (l : LineId) :
    (s.lines.get l).Comparable := by
  obtain ⟨comparable, _⟩ := settled l
  exact comparable

/-- After the end of an event that makes one line fresh every line is safe. -/
theorem endEventWith_linesSafe {fresh : Option LineId} {s : State} (comparable : ∀ l, (s.lines.get l).Comparable)
    (settled : ∀ l, fresh ≠ some l → (s.lines.get l).Settled) : (endEventWith fresh s).LinesSafe := by
  intro l
  have sources : ∀ routing, viewOf (endEventWith fresh s) routing = viewOf s routing := fun routing =>
    (endEventWith_ended fresh s).same (fun u => viewOf u routing) fun _ => rfl
  rw [sources, endEventWith_line]
  exact deriveLine_safe (comparable l) fun stale => settled l (by simpa using stale)

/-- The end of an event makes settled lines safe, whatever their sources have become. -/
theorem State.LinesSettled.ended {s : State} (settled : s.LinesSettled) : (endEvent s).LinesSafe :=
  endEventWith_linesSafe settled.comparable fun l _ => settled l

/-- What leaving ACTIVE reaches leaves the lines. -/
theorem Fallen.linesSettled {s t : State} (h : Fallen s t) (settled : s.LinesSettled) : t.LinesSettled :=
  (h.same State.LinesSettled fun _ => rfl).mpr settled

/-- An event whose consequences are what leaving ACTIVE reaches ends with safe lines. -/
theorem Fallen.ended_linesSafe {s t : State} (h : Fallen s t) (settled : s.LinesSettled) : (endEvent t).LinesSafe :=
  (h.linesSettled settled).ended

/-- The log is no source. -/
theorem Logged.linesSafe {s t : State} (h : Logged s t) (safe : s.LinesSafe) : t.LinesSafe :=
  (h.same State.LinesSafe fun _ => rfl).mpr safe

end Sys2Proof.Machine

/-! # What the commands do to the lines (R129 to R132, R134 to R139) -/

namespace Sys2Proof.Machine

open Sys2Proof

variable {s : State}

/-! ## Time and sources -/

/-- The passing of time moves timers on, and leaves every source (R131). -/
theorem viewOf_elapse (n : Nat) (routing : DomainSet) (s : State) : viewOf (elapse n s) routing = viewOf s routing := by
  have tripped : ((elapse n s).watch.state == .tripped) = (s.watch.state == .tripped) := by
    rw [elapse_watch]
    cases h : s.watch.state <;> simp [h]
  simp only [viewOf, tripped, elapse_compliance, PerDomain.get_map]
  rfl

theorem ThrottleLine.Safe.elapse {v : ThrottleLine} {view : SourceView} (h : v.Safe view) (n : Nat) :
    ThrottleLine.Safe { v with window := v.window.map (Timer.elapse n) } view := by
  obtain ⟨sources, drive, cause, pin, valid, sensed, external, stuck, window⟩ := h
  exact ⟨sources, drive, cause, pin, valid, sensed, external, stuck, by rw [Option.isSome_map, window]⟩

theorem elapse_linesSafe (safe : s.LinesSafe) (n : Nat) : (elapse n s).LinesSafe := by
  intro l
  rw [viewOf_elapse, elapse_lines, PerLine.get_map]
  exact (safe l).elapse n

theorem await_linesSafe (safe : s.LinesSafe) (w : Timer) : (await w s).LinesSafe := by
  unfold await
  split
  · exact safe
  · exact elapse_linesSafe safe _

/-- A wait stops no window timer. -/
theorem await_window_isSome (w : Timer) (l : LineId) (s : State) :
    ((await w s).lines.get l).window.isSome = (s.lines.get l).window.isSome := by
  unfold await
  split
  · rfl
  · rw [elapse_lines, PerLine.get_map, Option.isSome_map]

/-- Another record of a zone that trips for no other routing leaves the lines safe (R131). -/
theorem setZoneRecord_linesSafe (safe : s.LinesSafe) {z : ZoneId} {w : Zone}
    (same : ∀ routing, w.trips routing = (s.zones.get z).trips routing) : (setZoneRecord z w s).LinesSafe := by
  have sources : ∀ routing, viewOf (setZoneRecord z w s) routing = viewOf s routing := by
    intro routing
    have own := same routing
    cases z <;> simp only [viewOf, setZoneRecord, PerZone.set, PerZone.get] at own ⊢ <;> rw [own]
  intro l
  rw [sources]
  exact safe l

/-- Another compliance record of the same state leaves the lines safe (R131). -/
theorem setCompliance_linesSafe (safe : s.LinesSafe) {d : DomainId} {c : Compliance}
    (same : c.state = (s.compliance.get d).state) : (setCompliance d c s).LinesSafe := by
  have sources : ∀ routing, viewOf (setCompliance d c s) routing = viewOf s routing := by
    intro routing
    cases d <;> simp only [viewOf, setCompliance, PerDomain.set, PerDomain.get] at same ⊢ <;> rw [same]
  intro l
  rw [sources]
  exact safe l

/-! ## Sensing (chapter 1) -/

theorem startConversion_linesSafe (safe : s.LinesSafe) : (startConversion s).LinesSafe :=
  (startConversion_same State.LinesSafe (fun _ _ _ => rfl) s).mpr safe

theorem requestConversion_linesSafe (safe : s.LinesSafe) (c : TempId) : (requestConversion c s).LinesSafe := by
  unfold requestConversion
  split
  · exact (occur_logged _ _ _ s).linesSafe safe
  · exact startConversion_linesSafe (s := { s with queue := s.queue ++ [c] }) safe

/-- A channel's change reaches the sources with the end of an event only (R10, R63). -/
theorem changeTemp_linesSafe (safe : s.LinesSafe) (c : TempId) (v next : TempChannel) :
    (changeTemp c v next s).LinesSafe := by
  have stored : (setTempRecord c next s).LinesSettled := safe.settled
  unfold changeTemp sourcesChanged
  dsimp only
  split
  · exact ((occur_logged _ _ _ _).switched.fallen.trans (followAllSources_fallen _)).ended_linesSafe stored
  · split
    · exact ((endCondition_logged _ _ _).switched.fallen.trans (followAllSources_fallen _)).ended_linesSafe stored
    · exact safe

theorem handleOutcome_linesSafe (safe : s.LinesSafe) (j : Conversion) (result : RawResult) :
    (handleOutcome j result s).LinesSafe := by
  unfold handleOutcome
  dsimp only
  split <;> exact changeTemp_linesSafe safe _ _ _

theorem configureChannel_linesSafe (safe : s.LinesSafe) (c : TempId) (cfg : ChannelConfig) :
    (configureChannel c cfg s).LinesSafe := by
  have removed : (voidConversion c { s with queue := s.queue.filter fun q => q != c }).LinesSafe := safe
  have voided : (voidConversion c s).LinesSafe := safe
  unfold configureChannel
  dsimp only
  split
  · exact safe
  · split
    · exact safe
    · exact safe
    · exact changeTemp_linesSafe removed _ _ _
    · exact changeTemp_linesSafe voided _ _ _

theorem ownSetChannel_linesSafe (safe : s.LinesSafe) (r : ChannelRequest) : (ownSetChannel r s).1.LinesSafe := by
  unfold ownSetChannel
  split
  · exact safe
  · dsimp only
    split
    · exact safe
    · split
      · exact safe
      · exact configureChannel_linesSafe safe _ _

/-! ## Samples (R15 to R19) -/

theorem judgeDelivery_fallen (d : DomainId) (power : Nat) (s : State) : Fallen s (judgeDelivery d power s) := by
  unfold judgeDelivery
  dsimp only
  split
  · split
    · rfl
    · split
      · split
        · exact Fallen.trans (t := setCompliance d _ s) rfl (occur_logged _ _ _ _).switched.fallen
        · rfl
      · rfl
  · split
    · split <;> rfl
    · rfl

theorem complianceDelivery_fallen (d : DomainId) (q : Quality) (power : Nat) (s : State) :
    Fallen s (complianceDelivery d q power s) := by
  cases q
  · exact judgeDelivery_fallen d power s
  · exact judgeDelivery_fallen d power s
  · unfold complianceDelivery substituteCompliance
    dsimp only
    split <;> rfl

theorem deliverToDomain_linesSafe (safe : s.LinesSafe) (d : DomainId) (v : PowerChannel) :
    (deliverToDomain d v s).LinesSafe := by
  unfold deliverToDomain
  split
  · exact safe
  · exact ((complianceDelivery_fallen _ _ _ s).trans
      (accountDelivery_limited _ _ _ _).switched.fallen).ended_linesSafe safe.settled

theorem recomputeShares_ended_linesSafe (settled : s.LinesSettled) : (endEvent (recomputeShares s)).LinesSafe :=
  (recomputeShares_offered s).limited.switched.fallen.ended_linesSafe settled

theorem restChange_linesSafe (safe : s.LinesSafe) (before : Nat) : (restChange before s).LinesSafe := by
  unfold restChange
  split
  · exact safe
  · exact recomputeShares_ended_linesSafe safe.settled

theorem watchDelivery_linesSettled (settled : s.LinesSettled) (power : Nat) : (watchDelivery power s).LinesSettled := by
  unfold watchDelivery
  dsimp only
  split
  · exact settled
  · exact settled
  · split <;> exact settled

/-- A cancelled trip timer is no source: the watch was not TRIPPED, and is not now (R108, R131). -/
theorem watchFailure_linesSafe (safe : s.LinesSafe) : (watchFailure s).LinesSafe := by
  unfold watchFailure
  split
  · rename_i timing
    intro l
    have own := safe l
    simp only [viewOf, timing] at own ⊢
    exact own
  · exact safe
  · exact safe

theorem deliverToWatch_linesSafe (safe : s.LinesSafe) (old : ChannelState) (v : PowerChannel) :
    (deliverToWatch old v s).LinesSafe := by
  unfold deliverToWatch
  split
  · exact (watchDelivery_linesSettled safe.settled _).ended
  · exact (watchDelivery_linesSettled safe.settled _).ended
  · split
    · exact safe
    · exact watchFailure_linesSafe safe
  · exact safe
  · exact safe

theorem deliver_linesSafe (safe : s.LinesSafe) (n : PowerId) (old v : PowerChannel) :
    (deliver n old v s).LinesSafe := by
  cases n
  · exact deliverToDomain_linesSafe safe _ _
  · exact deliverToDomain_linesSafe safe _ _
  · exact deliverToDomain_linesSafe safe _ _
  · exact restChange_linesSafe safe _
  · exact deliverToWatch_linesSafe safe _ _

theorem reportPower_linesSafe (safe : s.LinesSafe) (n : PowerId) (old new : ChannelState) :
    (reportPower n old new s).LinesSafe := by
  unfold reportPower
  split
  · exact (occur_logged _ _ _ s).linesSafe safe
  · split <;> exact safe

theorem ownSetPowerChannel_linesSafe (safe : s.LinesSafe) (r : PowerChannelRequest) :
    (ownSetPowerChannel r s).1.LinesSafe := by
  unfold ownSetPowerChannel configurePower
  split
  · exact safe
  · split
    · exact safe
    · dsimp only
      split
      · exact restChange_linesSafe (s := { setPowerRecord _ _ s with restFail := _ }) safe _
      all_goals exact safe

/-! ## Posture (R23 to R38) -/

theorem commit_linesSettled (settled : s.LinesSettled) (candidate : Place) : (commit candidate s).LinesSettled := by
  unfold commit
  dsimp only
  split
  · split <;> exact settled
  · exact settled

theorem reclassify_linesSettled (settled : s.LinesSettled) : (reclassify s).LinesSettled := by
  unfold reclassify setDwell
  dsimp only
  split
  · exact settled
  · split
    · exact settled
    · split
      · exact settled
      · refine commit_linesSettled ?_ _
        exact settled
      · exact settled

theorem classifierEvent_linesSettled (settled : s.LinesSettled) (l : InputId) (edge : Bool) :
    (classifierEvent l edge s).LinesSettled := by
  unfold classifierEvent
  refine (deriveEffective_fallen _).linesSettled (reclassify_linesSettled ?_)
  split <;> exact settled

theorem takeLevel_linesSafe (safe : s.LinesSafe) (l : InputId) (asserted : Bool) :
    (takeLevel l asserted s).LinesSafe := by
  have noticed : ∀ (c : Bool) (k : NoticeKind) (inputs : PerInput InputLine),
      (if c then raise k { s with inputs := inputs } else { s with inputs := inputs }).LinesSettled := by
    intro c k inputs
    split <;> exact safe.settled
  cases l
  · exact (classifierEvent_linesSettled (noticed _ _ _) _ _).ended
  · refine State.LinesSettled.ended (inAnyOrder_keeps State.LinesSettled (fun _ _ h => h) _ ?_ _ (noticed _ _ _))
    simp only [List.mem_cons, List.not_mem_nil, or_false]
    rintro f (rfl | rfl) t settled
    · exact classifierEvent_linesSettled settled _ _
    · exact (recomputeShares_offered t).limited.switched.fallen.linesSettled settled
  · exact (classifierEvent_linesSettled (noticed _ _ _) _ _).ended
  · exact (classifierEvent_linesSettled (noticed _ _ _) _ _).ended

theorem startDebounce_linesSafe (safe : s.LinesSafe) (l : InputId) (asserted : Bool) :
    (startDebounce l asserted s).LinesSafe := by
  unfold startDebounce
  dsimp only
  split
  · exact takeLevel_linesSafe safe l asserted
  · exact safe

theorem levelChange_linesSafe (safe : s.LinesSafe) (l : InputId) : (levelChange l s).LinesSafe := by
  unfold levelChange
  dsimp only
  split
  · exact safe
  · exact startDebounce_linesSafe safe _ _

theorem ownSetInput_linesSafe (safe : s.LinesSafe) (r : InputRequest) : (ownSetInput r s).1.LinesSafe := by
  have stored : ∀ inputs, State.LinesSafe { s with inputs := inputs } := fun _ => safe
  unfold ownSetInput configureInput
  split
  · exact safe
  · dsimp only
    split
    · exact levelChange_linesSafe (stored _) _
    · split
      · split
        · exact startDebounce_linesSafe (stored _) _ _
        · exact safe
      · exact safe

theorem commitCandidate_linesSafe (safe : s.LinesSafe) : (commitCandidate s).LinesSafe := by
  unfold commitCandidate
  split
  · exact safe
  · exact (deriveEffective_fallen _).ended_linesSafe (commit_linesSettled safe.settled _)

theorem placeHint_linesSafe (safe : s.LinesSafe) (hint : Option Hint) : (placeHint hint s).LinesSafe := by
  unfold placeHint
  split
  · exact safe
  · exact (deriveEffective_fallen { s with hint := hint }).ended_linesSafe safe.settled

/-- A hint is refused, or placed in the slot (R32 to R35). -/
theorem ownPostureHint_linesSafe (safe : s.LinesSafe) (port : Port) (code : HintCode) :
    (ownPostureHint port code s).1.LinesSafe := by
  cases code with
  | unsettled => exact safe
  | noHint =>
    rw [ownPostureHint_noHint]
    split
    · exact safe
    · exact placeHint_linesSafe safe _
  | place h =>
    rw [ownPostureHint_place]
    split
    · exact safe
    · exact placeHint_linesSafe safe _

/-! ## Profile table, domains and supply -/

theorem ownSetProfile_linesSafe (safe : s.LinesSafe) (r : ProfileRequest) : (ownSetProfile r s).1.LinesSafe := by
  have stored : ∀ profile, State.LinesSettled { s with profile := profile } := fun _ => safe.settled
  unfold ownSetProfile storeEntry
  split
  · split
    · dsimp only
      split
      · exact (reselectDomain_limited _ _).switched.fallen.ended_linesSafe (stored _)
      · exact safe
    · exact safe
  · exact safe

theorem ownSetSkinLimits_linesSafe (safe : s.LinesSafe) (r : SkinRequest) : (ownSetSkinLimits r s).1.LinesSafe := by
  have stored : ∀ skin, State.LinesSettled { s with skin := skin } := fun _ => safe.settled
  unfold ownSetSkinLimits storeLimits
  split
  · exact safe
  · split
    · dsimp only
      split
      · exact safe
      · exact (reselectZone_switched _ _).fallen.ended_linesSafe (stored _)
    · exact safe

/-- The effects of a changed domain record are consequences (R114). -/
theorem configureDomain_linesSafe (safe : s.LinesSafe) (d : DomainId) (r : DomainRecord) :
    (configureDomain d r s).LinesSafe := by
  have only : ∀ (c : Bool) (f : State → State) t, Fallen t (f t) → Fallen t (onlyIf c f t) := by
    intro c f t h
    cases c
    · rfl
    · exact h
  unfold configureDomain
  dsimp only
  split
  · exact safe
  · refine (Fallen.inAnyOrder _ ?_ _).ended_linesSafe (s := { s with domains := s.domains.set d r }) safe.settled
    simp only [List.mem_cons, List.not_mem_nil, or_false]
    rintro f (rfl | rfl | rfl | rfl) t
    · exact only _ _ t (accountRecover_limited d t).switched.fallen
    · exact only _ _ t (recomputeShares_offered t).limited.switched.fallen
    · exact only _ _ t (resolve_offered d t).limited.switched.fallen
    · exact only _ _ t rfl

theorem ownSetDomain_linesSafe (safe : s.LinesSafe) (r : DomainRequest) : (ownSetDomain r s).1.LinesSafe := by
  unfold ownSetDomain
  split
  · exact safe
  · split
    · exact configureDomain_linesSafe safe _ _
    · exact safe

theorem ownSetCap_linesSafe (safe : s.LinesSafe) (port : Port) (r : CapRequest) : (ownSetCap port r s).1.LinesSafe := by
  have stored : ∀ caps, State.LinesSettled { s with caps := caps } := fun _ => safe.settled
  unfold ownSetCap storeCap
  split
  · exact safe
  · dsimp only
    split
    · exact safe
    · exact (offerCaps_offered _ _).limited.switched.fallen.ended_linesSafe (stored _)

theorem ownSetSupplyConfig_linesSafe (safe : s.LinesSafe) (c : SupplyConfig) :
    (ownSetSupplyConfig c s).1.LinesSafe := by
  have stored : ∀ cfg, State.LinesSettled { s with supplyCfg := cfg } := fun _ => safe.settled
  unfold ownSetSupplyConfig configureSupply
  split
  · dsimp only
    split
    · exact safe
    · exact recomputeShares_ended_linesSafe (stored _)
  · exact safe

theorem ownSupplyReport_linesSafe (safe : s.LinesSafe) (r : ReportRequest) : (ownSupplyReport r s).1.LinesSafe := by
  have stored : ∀ report, State.LinesSettled { s with report := report } := fun _ => safe.settled
  exact recomputeShares_ended_linesSafe (stored _)

theorem supplyTrips_linesSafe (safe : s.LinesSafe) : (supplyTrips s).LinesSafe :=
  (occurFatal_fallen _ _ _ { s with watch := { s.watch with state := .tripped } }).ended_linesSafe safe.settled

/-! ## Mode -/

/-- ACTIVATE fails one of its checks, or changes the mode (R150, R151). -/
theorem ownActivate_linesSafe (safe : s.LinesSafe) (u : Unit) : (ownActivate u s).1.LinesSafe := by
  have active : (becomeActive s).LinesSafe :=
    (deriveColumn_fallen (raise .mode { s with mode := .active })).ended_linesSafe safe.settled
  unfold ownActivate
  split
  · exact safe
  · split
    · exact safe
    · split
      · exact safe
      · split
        · exact safe
        · exact active

theorem ownDeactivate_linesSafe (safe : s.LinesSafe) (u : Unit) : (ownDeactivate u s).1.LinesSafe := by
  unfold ownDeactivate
  split
  · exact (leaveActive_fallen s).ended_linesSafe safe.settled
  · exact safe

/-! ## Zones -/

theorem ownSetLadder_linesSafe (safe : s.LinesSafe) (r : LadderRequest) : (ownSetLadder r s).1.LinesSafe := by
  have recomputed : ∀ {t}, Fallen s t → (endEvent (recomputeThermal t)).LinesSafe := fun h =>
    (h.trans (recomputeThermal_limited _).switched.fallen).ended_linesSafe safe.settled
  unfold ownSetLadder configureLadder
  split
  · exact safe
  · split
    · dsimp only
      split
      · exact safe
      · split <;> exact recomputed rfl
    · exact safe

theorem leaveZone_fallen (z : ZoneId) (v : Zone) (s : State) : Fallen s (leaveZone z v s) := by
  unfold leaveZone
  dsimp only
  split <;> split <;> rfl

/-- A disabled zone is OFF, so its influence is no source; every other SET_ZONE ends an event (R54, R71, R72). -/
theorem configureZone_linesSafe (safe : s.LinesSafe) {z : ZoneId} (zone : (s.zones.get z).Safe) (cfg : ZoneConfig) :
    (configureZone z cfg s).LinesSafe := by
  have restarted : ∀ v w,
      (endEvent (recomputeThermal (followSources z (leaveZone z v (setZoneRecord z w s))))).LinesSafe := fun v w =>
    ((leaveZone_fallen z v _).trans ((followSources_fallen z _).trans
      (recomputeThermal_limited _).switched.fallen)).ended_linesSafe (s := setZoneRecord z w s) safe.settled
  unfold configureZone
  dsimp only
  split
  · exact safe
  · split
    · rename_i was _
      obtain ⟨off, _⟩ := zone
      exact setZoneRecord_linesSafe safe fun _ => by rw [Zone.trips, Zone.trips, off.mpr was]; rfl
    · exact restarted _ _
    · exact restarted _ _

theorem ownSetZone_linesSafe (safe : s.LinesSafe) (zones : s.ZonesSafe) (r : ZoneRequest) :
    (ownSetZone r s).1.LinesSafe := by
  unfold ownSetZone
  split
  · split
    · exact configureZone_linesSafe safe (zones.record _) _
    · exact safe
  · exact safe

/-! ## Lines -/

/-- What holds of a new record of a line and of the other lines holds of every line. -/
theorem forall_line_setLineRecord {p : ThrottleLine → Prop} {l : LineId} {w : ThrottleLine} (own : p w)
    (others : ∀ l', p (s.lines.get l')) (l' : LineId) : p ((setLineRecord l w s).lines.get l') := by
  rw [setLineRecord_lines, PerLine.get_set]
  split
  · exact own
  · exact others l'

/-- The level of a pin is taken, and compared; sources and drive stay (R130, R137, R138). -/
theorem compareLine_sensed_linesSafe (safe : s.LinesSafe) (l : LineId) (high : Bool) :
    (compareLine l .sensed (setLineRecord l
      { s.lines.get l with pinHigh := high, sensed := interpret (s.lines.get l).cfg.polarity high } s)).LinesSafe := by
  intro l'
  have sources : ∀ {w : ThrottleLine} routing,
      viewOf (compareLine l .sensed (setLineRecord l w s)) routing = viewOf s routing := fun routing =>
    (compareLine_ended l .sensed _).same (fun u => viewOf u routing) fun _ => rfl
  rw [sources]
  by_cases e : l' = l
  · subst e
    obtain ⟨follows, ⟨valid, _, idle⟩, _⟩ := (ThrottleLine.safe_iff _ _).mp (safe l')
    have sensed : ThrottleLine.Comparable
        { s.lines.get l' with pinHigh := high, sensed := interpret (s.lines.get l').cfg.polarity high } :=
      ⟨valid, rfl, idle⟩
    rw [compareLine_lines, setLineRecord_lines, PerLine.get_set_self, PerLine.get_set_self]
    exact (ThrottleLine.safe_iff _ _).mpr ⟨follows, sensed.comparedAfter .sensed⟩
  · rw [compareLine_others _ _ _ _ e, setLineRecord_lines, PerLine.get_set_of_ne _ _ _ _ e]
    exact safe l'

/-- A window timer runs only under a mismatch, so LINE_STUCK becomes present under one (R138, R139). -/
theorem lineSticks_linesSafe (safe : s.LinesSafe) {l : LineId} (runs : (s.lines.get l).window.isSome = true) :
    (lineSticks l s).LinesSafe := by
  have stuck : ThrottleLine.Settled { s.lines.get l with stuck := true, window := none } := by
    obtain ⟨⟨valid, sensed, _⟩, external, _, window⟩ := safe.settled l
    have differs := (Bool.and_eq_true_iff.mp (window.symm.trans runs)).1
    exact ⟨⟨valid, sensed, fun _ => rfl⟩, external, fun _ => differs, by simp⟩
  exact (occurFatal_fallen _ _ _ _).ended_linesSafe (forall_line_setLineRecord stuck safe.settled)

/-- The manual level is no matter of a comparison (R134). -/
theorem ownForceLine_linesSafe (safe : s.LinesSafe) (r : ForceRequest) : (ownForceLine r s).1.LinesSafe := by
  unfold ownForceLine
  split
  · exact safe
  · rename_i l _
    dsimp only
    split
    · exact safe
    · have forced : ThrottleLine.Settled { s.lines.get l with manual := r.asserted } := safe.settled l
      exact State.LinesSettled.ended (forall_line_setLineRecord forced safe.settled)

/-- A changed output type or polarity makes its line fresh; where neither changed, the sensed level and the last
comparison stand (R136). -/
theorem configureLine_linesSafe (safe : s.LinesSafe) (l : LineId) {cfg : LineConfig} (valid : outputValid cfg = true) :
    (configureLine l cfg s).LinesSafe := by
  unfold configureLine
  dsimp only
  split
  · exact safe
  · obtain ⟨⟨_, sensed, idle⟩, compared⟩ := safe.settled l
    have comparable : ThrottleLine.Comparable
        { s.lines.get l with cfg := cfg, sensed := interpret cfg.polarity (s.lines.get l).pinHigh } :=
      ⟨valid, rfl, idle⟩
    refine endEventWith_linesSafe (forall_line_setLineRecord comparable safe.settled.comparable) fun l' stale => ?_
    rw [setLineRecord_lines, PerLine.get_set]
    split
    · rename_i own
      obtain ⟨output, polarity⟩ :
          cfg.output = (s.lines.get l).cfg.output ∧ cfg.polarity = (s.lines.get l).cfg.polarity := by
        by_contra changed
        exact stale (by rw [if_pos (by tauto), own])
      refine ⟨comparable, ?_⟩
      simp only [ThrottleLine.Compared, output, polarity, ← sensed]
      exact compared
    · exact safe.settled l'

theorem ownSetRouting_linesSafe (safe : s.LinesSafe) (r : RoutingRequest) : (ownSetRouting r s).1.LinesSafe := by
  unfold ownSetRouting
  split
  · exact safe
  · split
    · rename_i valid
      exact configureLine_linesSafe safe _ valid
    · exact safe

/-- A reset record is safe at either pin level, with no source active but the floor that it says (R128). -/
theorem resetLine_safe (routing : DomainSet) (floored pinHigh : Bool) :
    (resetLine routing floored pinHigh).Safe
      { supplyTrip := false, zoneTrip := false, excess := false, floor := floored } := by
  cases floored <;> cases pinHigh <;>
    simp [ThrottleLine.Safe, resetLine, driveOf, causeOf, SourceView.any, pinOutOf, outputValid, interpret, externalOf,
      mismatch]

end Sys2Proof.Machine

/-! # Every step keeps the lines (R129 to R132, R135, R137, R138) -/

namespace Sys2Proof.Machine

open Sys2Proof

/-- A request keeps the lines safe where its owner does. -/
theorem request_linesSafe {α : Type} {kind : Kind} {call : Call} {shape : List Byte → Option α}
    {owner : Port → α → State → State × Reply} {body : List Byte} {s t : State} (safe : s.LinesSafe)
    (h : atPort call (fun port => takeRequest kind port shape (owner port) body) s = .next t)
    (own : ∀ r, (owner call.port r s).1.LinesSafe) : t.LinesSafe :=
  atPort_keeps State.LinesSafe call _ s t safe
    (takeRequest_keeps State.LinesSafe (fun _ _ h => h) kind call.port shape (owner call.port) body s safe
      fun _ r _ _ => own r) h

/-- Every bus transaction keeps the lines safe. -/
theorem transaction_linesSafe (i : Instr) (s t : State) (hc : (callOf i).isSome = true) (zones : s.ZonesSafe)
    (safe : s.LinesSafe) (h : exec i s = .next t) : t.LinesSafe := by
  cases i <;> simp only [exec] at h
  case badFrame call bytes =>
    exact atPort_keeps _ _ _ s t safe (takeWrite_keeps State.LinesSafe (fun _ _ h => h) _ _ _ s safe fun _ _ => safe) h
  case unknown call kind body =>
    refine atPort_keeps _ _ _ s t safe
      (takeWrite_keeps State.LinesSafe (fun _ _ h => h) _ _ _ s safe fun received _ => ?_) h
    split <;> exact safe
  case replyRead call clocked => exact atPort_keeps State.LinesSafe _ _ s t safe safe h
  case identify | readStatus | readGrants | readFaults | readNotices | clearNotices | setNoticeMask | clearFaults |
      setPostureTiming =>
    exact request_linesSafe safe h fun _ => safe
  case readDomain =>
    refine request_linesSafe safe h fun r => ?_
    unfold ownReadDomain
    split
    · exact safe
    · split <;> exact safe
  case readZone =>
    refine request_linesSafe safe h fun r => ?_
    unfold ownReadZone
    split <;> exact safe
  case readChannel =>
    refine request_linesSafe safe h fun r => ?_
    unfold ownReadChannel
    split <;> split <;> exact safe
  case setChannel => exact request_linesSafe safe h (ownSetChannel_linesSafe safe)
  case setPowerChannel => exact request_linesSafe safe h (ownSetPowerChannel_linesSafe safe)
  case setInput => exact request_linesSafe safe h (ownSetInput_linesSafe safe)
  case setZone => exact request_linesSafe safe h (ownSetZone_linesSafe safe zones)
  case setLadder => exact request_linesSafe safe h (ownSetLadder_linesSafe safe)
  case setProfile => exact request_linesSafe safe h (ownSetProfile_linesSafe safe)
  case setSkinLimits => exact request_linesSafe safe h (ownSetSkinLimits_linesSafe safe)
  case setDomain => exact request_linesSafe safe h (ownSetDomain_linesSafe safe)
  case setRouting => exact request_linesSafe safe h (ownSetRouting_linesSafe safe)
  case setSupplyConfig => exact request_linesSafe safe h (ownSetSupplyConfig_linesSafe safe)
  case supplyReport => exact request_linesSafe safe h (ownSupplyReport_linesSafe safe)
  case setCap call body => exact request_linesSafe safe h (ownSetCap_linesSafe safe call.port)
  case postureHint call body => exact request_linesSafe safe h (ownPostureHint_linesSafe safe call.port)
  case forceLine => exact request_linesSafe safe h (ownForceLine_linesSafe safe)
  case activate => exact request_linesSafe safe h (ownActivate_linesSafe safe)
  case deactivate => exact request_linesSafe safe h (ownDeactivate_linesSafe safe)
  all_goals simp [callOf, requestParts] at hc

/-- With these records, and every source but D1's floor inactive, every line is safe (R128). -/
theorem resetLines_linesSafe (pins : PerLine Bool) : State.LinesSafe { State.reset with lines := resetLines pins } := by
  intro l
  cases l <;> exact resetLine_safe _ _ _

/-- An event keeps the lines safe where its effect outside a reset does. -/
theorem outsideReset_linesSafe {f : State → State} {s t : State} (safe : s.LinesSafe)
    (h : outsideReset f s = .next t) (own : (f s).LinesSafe) : t.LinesSafe :=
  outsideReset_keeps State.LinesSafe f s t safe own h

/-- Every event keeps the lines safe. -/
theorem event_linesSafe (i : Instr) (s t : State) (hc : callOf i = none) (safe : s.LinesSafe)
    (h : exec i s = .next t) : t.LinesSafe := by
  have due : ∀ w, (await w s).LinesSafe := await_linesSafe safe
  cases i <;> simp only [exec] at h
  case reset edge pins lines => cases edge <;> cases h <;> exact resetLines_linesSafe _
  case intervalTimerExpiry c =>
    refine outsideReset_linesSafe safe h ?_
    split
    · exact safe
    · rename_i w _
      exact requestConversion_linesSafe (s := setTempRecord c _ (await w s)) (due w) c
  case conversionEnd result =>
    refine outsideReset_linesSafe safe h ?_
    split
    · exact safe
    · rename_i j _
      have idle : State.LinesSafe { await j.timer s with converter := none } := due j.timer
      refine startConversion_linesSafe ?_
      split
      · exact idle
      · exact handleOutcome_linesSafe idle j result
  case sampleArrival n sample =>
    refine outsideReset_linesSafe safe h ?_
    refine deliver_linesSafe (reportPower_linesSafe ?_ n _ _) n _ _
    exact due (s.powers.get n).timer
  case tripTimerExpiry =>
    refine outsideReset_linesSafe safe h ?_
    split
    · exact supplyTrips_linesSafe (due _)
    · exact safe
    · exact safe
  case inputLevelChange l high =>
    refine outsideReset_linesSafe safe h ?_
    dsimp only
    split
    · exact safe
    · refine levelChange_linesSafe ?_ l
      exact safe
  case debounceExpiry l =>
    refine outsideReset_linesSafe safe h ?_
    split
    · exact safe
    · exact takeLevel_linesSafe (due _) l _
  case dwellExpiry =>
    refine outsideReset_linesSafe safe h ?_
    split
    · exact safe
    · exact commitCandidate_linesSafe (due _)
  case zoneUpdate z =>
    refine outsideReset_linesSafe safe h ?_
    split
    · exact safe
    · rename_i w _
      have restarted : ∀ timer,
          (setZoneRecord z { (await w s).zones.get z with timer := timer } (await w s)).LinesSafe :=
        fun _ => setZoneRecord_linesSafe (due w) fun _ => rfl
      dsimp only
      split
      · exact restarted _
      · exact (updateZone_switched z _ _).fallen.ended_linesSafe (restarted _).settled
  case settleTimerExpiry d =>
    refine outsideReset_linesSafe safe h ?_
    split
    · exact safe
    · exact setCompliance_linesSafe (due _) rfl
  case sensedLevelChange l high =>
    refine outsideReset_linesSafe safe h ?_
    dsimp only
    split
    · exact safe
    · exact compareLine_sensed_linesSafe safe l high
  case readbackWindowExpiry l =>
    refine outsideReset_linesSafe safe h ?_
    split
    · exact safe
    · rename_i w running
      exact lineSticks_linesSafe (due w) (by rw [await_window_isSome, running]; rfl)
  all_goals simp [callOf, requestParts] at hc

theorem exec_linesSafe (i : Instr) (s t : State) (zones : s.ZonesSafe) (safe : s.LinesSafe) (h : exec i s = .next t) :
    t.LinesSafe := by
  cases hc : callOf i with
  | none => exact event_linesSafe i s t hc safe h
  | some call => exact transaction_linesSafe i s t (by simp [hc]) zones safe h

/-- Settles O57: time moves the lines' window timers only, and every command keeps the lines safe; that a disabled zone
is OFF is what it takes from the zones. -/
theorem everyStepKeepsTheLines : Obligations.EveryStepKeepsTheLines := by
  intro s t zones safe e
  unfold step at e
  split at e
  · exact outsideReset_linesSafe safe e (elapse_linesSafe safe 1)
  · rename_i i rest _
    exact exec_linesSafe i { s with pending := rest } t zones safe e

end Sys2Proof.Machine

/-! # The fault log: what occurrences, ends and clears keep of R142, R144, R145 and R148 -/

namespace Sys2Proof.Machine

open Sys2Proof

/-! ## Logs -/

/-- Every pair of a kind and a subject that it has (R142). -/
def faultPairs : List (FaultKind × Nat) :=
  [FaultKind.tchFailed, .pchFailed, .convOverrun, .zoneTrip, .zoneBlind, .excess, .lineStuck, .supplyTrip].flatMap
    fun kind => (List.range kind.subjects).map (kind, ·)

theorem mem_faultPairs (kind : FaultKind) (n : Nat) (h : n < kind.subjects) : (kind, n) ∈ faultPairs := by
  simp only [faultPairs, List.mem_flatMap, List.mem_map, List.mem_range]
  exact ⟨kind, by cases kind <;> simp, n, h, rfl⟩

/-- The pair that a record is the only one of in the log (R144). -/
def FaultRecord.pair (r : FaultRecord) : FaultKind × Nat := (r.kind, r.subject)

/-- Each record is one of its kind's, and the only one of its pair (R142, R144). -/
def LogSound (log : List FaultRecord) : Prop := (∀ r ∈ log, r.Safe) ∧ (log.map FaultRecord.pair).Nodup

/-- A sound log has a record for each of 37 pairs at most (R142). -/
theorem LogSound.length_le {log : List FaultRecord} (h : LogSound log) : log.length ≤ 37 := by
  obtain ⟨safe, nodup⟩ := h
  have listed : log.map FaultRecord.pair ⊆ faultPairs := by
    intro p hp
    obtain ⟨r, hr, rfl⟩ := List.mem_map.mp hp
    obtain ⟨subject, _⟩ := safe r hr
    exact mem_faultPairs r.kind r.subject subject
  calc log.length = (log.map FaultRecord.pair).length := List.length_map _ |>.symm
    _ ≤ faultPairs.length := (List.subperm_of_subset nodup listed).length_le
    _ = 37 := by decide

/-- What is left of a sound log is sound. -/
theorem LogSound.filter {log : List FaultRecord} (h : LogSound log) (p : FaultRecord → Bool) :
    LogSound (log.filter p) := by
  obtain ⟨safe, nodup⟩ := h
  exact ⟨fun r hr => safe r (List.mem_of_mem_filter hr), nodup.sublist (List.filter_sublist.map _)⟩

theorem newRecord_safe {kind : FaultKind} {n : Nat} (h : n < kind.subjects) (value : Option Int) (uptime : Nat) :
    (newRecord kind n value uptime).Safe :=
  ⟨h, rfl, by cases kind <;> rfl, Nat.le_refl 1, by simp [newRecord]⟩

/-- A first occurrence appends to a sound log a record of a pair that it does not hold (R144). -/
theorem LogSound.append {log : List FaultRecord} (h : LogSound log) {kind : FaultKind} {n : Nat}
    (subject : n < kind.subjects) (first : logHolds log kind n = false) (value : Option Int) (uptime : Nat) :
    LogSound (log ++ [newRecord kind n value uptime]) := by
  obtain ⟨safe, nodup⟩ := h
  constructor
  · simp only [List.forall_mem_append, List.forall_mem_singleton]
    exact ⟨safe, newRecord_safe subject value uptime⟩
  · have absent : (kind, n) ∉ log.map FaultRecord.pair := by
      intro held
      obtain ⟨r, hr, same⟩ := List.mem_map.mp held
      obtain ⟨hkind, hsubject⟩ := Prod.mk.inj same
      rw [(logHolds_iff log kind n).mpr ⟨r, hr, hkind, hsubject⟩] at first
      cases first
    rw [List.map_append]
    exact nodup.append (List.nodup_singleton _) (List.disjoint_singleton.mpr absent)

/-- A change of records in place: pair and severity stay, and what holds of a kind's records (R145, R146). -/
structure ChangesInPlace (f : FaultRecord → FaultRecord) : Prop where
  pair : ∀ r, (f r).pair = r.pair
  severity : ∀ r, (f r).severity = r.severity
  safe : ∀ r, r.Safe → (f r).Safe

/-- A recurrence counts its record on in place (R145). -/
theorem recurrence_inPlace (kind : FaultKind) (n uptime : Nat) :
    ChangesInPlace fun r => if r.isOf kind n then r.recur uptime else r where
  pair r := by split <;> rfl
  severity r := by split <;> rfl
  safe r h := by
    split
    · obtain ⟨subject, severity, present, atLeast, atMost⟩ := h
      refine ⟨subject, severity, ?_, ?_, min_le_left _ _⟩
      · cases condition : r.kind.isCondition <;> simp [FaultRecord.recur, present, condition]
      · simp only [FaultRecord.recur]
        omega
    · exact h

/-- The end of a condition marks its record in place (R146). -/
theorem conditionEnd_inPlace {kind : FaultKind} (condition : kind.isCondition = true) (n : Nat) :
    ChangesInPlace fun r => if r.isOf kind n then { r with present := some false } else r where
  pair r := by split <;> rfl
  severity r := by split <;> rfl
  safe r h := by
    split
    · rename_i own
      obtain ⟨rfl, _⟩ := (isOf_iff r kind n).mp own
      obtain ⟨subject, severity, _, counted⟩ := h
      exact ⟨subject, severity, condition.symm, counted⟩
    · exact h

theorem LogSound.changed {log : List FaultRecord} (h : LogSound log) {f : FaultRecord → FaultRecord}
    (inPlace : ChangesInPlace f) : LogSound (log.map f) := by
  obtain ⟨safe, nodup⟩ := h
  refine ⟨List.forall_mem_map.mpr fun r hr => inPlace.safe r (safe r hr), ?_⟩
  have pairs : (log.map f).map FaultRecord.pair = log.map FaultRecord.pair := by
    rw [List.map_map]
    exact List.map_congr_left fun r _ => inPlace.pair r
  rwa [pairs]

/-- The summary looks at severities only (R148). -/
theorem summaryOf_changed {f : FaultRecord → FaultRecord} (inPlace : ChangesInPlace f) (log : List FaultRecord) :
    summaryOf (log.map f) = summaryOf log := by
  have severities : (log.map f).any (fun r => r.severity == .fatal) = log.any fun r => r.severity == .fatal := by
    rw [List.any_map]
    exact congrArg (fun p => log.any p) (funext fun r => by rw [Function.comp, inPlace.severity])
  rw [summaryOf, summaryOf, severities, List.isEmpty_map]

/-! ## The log, its summary and the mode -/

/-- The log is sound, and the summary is its own (R142, R144, R148). -/
def State.LogSummed (s : State) : Prop := LogSound s.faults ∧ s.severity = summaryOf s.faults

/-- No record is FATAL. -/
def State.NoFatal (s : State) : Prop := ∀ r ∈ s.faults, r.severity ≠ .fatal

/-- In ACTIVE a safe log is a sound one without a FATAL record; the bound on its length follows. -/
theorem logSafe_iff (s : State) : s.LogSafe ↔ s.LogSummed ∧ (s.mode = .active → s.NoFatal) := by
  constructor
  · rintro ⟨safe, nodup, _, severity, quiet⟩
    exact ⟨⟨⟨safe, nodup⟩, severity⟩, quiet⟩
  · rintro ⟨⟨sound, severity⟩, quiet⟩
    have ⟨safe, nodup⟩ := sound
    exact ⟨safe, nodup, sound.length_le, severity, quiet⟩

variable {s t : State}

theorem State.LogSafe.summed (safe : s.LogSafe) : s.LogSummed := ((logSafe_iff s).mp safe).1

theorem State.LogSafe.noFatal (safe : s.LogSafe) (active : s.mode = .active) : s.NoFatal :=
  ((logSafe_iff s).mp safe).2 active

/-- In SAFE any record may stand in the log (R149). -/
theorem State.LogSummed.logSafe_of_safe (h : s.LogSummed) (mode : s.mode = .safe) : s.LogSafe :=
  (logSafe_iff s).mpr ⟨h, fun active => by rw [mode] at active; cases active⟩

theorem State.LogSummed.changed (h : s.LogSummed) {f : FaultRecord → FaultRecord} (inPlace : ChangesInPlace f) :
    State.LogSummed { s with faults := s.faults.map f } := by
  obtain ⟨sound, severity⟩ := h
  exact ⟨sound.changed inPlace, severity.trans (summaryOf_changed inPlace s.faults).symm⟩

theorem State.NoFatal.changed (h : s.NoFatal) {f : FaultRecord → FaultRecord} (inPlace : ChangesInPlace f) :
    State.NoFatal { s with faults := s.faults.map f } :=
  List.forall_mem_map.mpr fun r hr => by rw [inPlace.severity]; exact h r hr

/-- An occurrence of a subject of its kind leaves a sound log and its summary (R144, R145, R148). -/
theorem occur_logSummed (h : s.LogSummed) {kind : FaultKind} {n : Nat} (subject : n < kind.subjects)
    (value : Option Int) : (occur kind n value s).LogSummed := by
  cases held : logHolds s.faults kind n with
  | true =>
    rw [occur_again kind n value s held]
    exact h.changed (recurrence_inPlace kind n s.uptime)
  | false =>
    rw [occur_first kind n value s held]
    exact ⟨h.1.append subject held value s.uptime, rfl⟩

/-- A WARNING occurrence brings no FATAL record. -/
theorem occur_noFatal (h : s.NoFatal) {kind : FaultKind} (warning : kind.severity ≠ .fatal) (n : Nat)
    (value : Option Int) : (occur kind n value s).NoFatal := by
  cases held : logHolds s.faults kind n with
  | true =>
    rw [occur_again kind n value s held]
    exact h.changed (recurrence_inPlace kind n s.uptime)
  | false =>
    rw [occur_first kind n value s held]
    simp only [State.NoFatal, raise_faults, List.forall_mem_append, List.forall_mem_singleton]
    exact ⟨h, warning⟩

/-- A WARNING occurrence keeps the log safe in either mode. -/
theorem occur_logSafe (safe : s.LogSafe) {kind : FaultKind} {n : Nat} (subject : n < kind.subjects)
    (warning : kind.severity ≠ .fatal) (value : Option Int) : (occur kind n value s).LogSafe := by
  have mode : (occur kind n value s).mode = s.mode := (occur_logged kind n value s).same State.mode fun _ => rfl
  refine (logSafe_iff _).mpr ⟨occur_logSummed safe.summed subject value, fun active => ?_⟩
  exact occur_noFatal (safe.noFatal (mode.symm.trans active)) warning n value

/-- The end of a condition keeps the log safe. -/
theorem endCondition_logSafe (safe : s.LogSafe) {kind : FaultKind} (condition : kind.isCondition = true) (n : Nat) :
    (endCondition kind n s).LogSafe :=
  have inPlace := conditionEnd_inPlace condition n
  (logSafe_iff _).mpr ⟨safe.summed.changed inPlace, fun active => (safe.noFatal active).changed inPlace⟩

/-- CLEAR_FAULTS leaves a part of the log, with its summary (R147, R148). -/
theorem ownClearFaults_logSafe (safe : s.LogSafe) (u : Unit) : (ownClearFaults u s).1.LogSafe :=
  (logSafe_iff _).mpr
    ⟨⟨safe.summed.1.filter _, rfl⟩, fun active r hr => safe.noFatal active r (List.mem_of_mem_filter hr)⟩

/-! ## The consequences of an event -/

theorem Offered.logSafe (k : Offered s t) (safe : s.LogSafe) : t.LogSafe :=
  (k.same State.LogSafe fun _ => rfl).mpr safe

theorem Limited.logSafe (k : Limited s t) (safe : s.LogSafe) : t.LogSafe :=
  (k.same State.LogSafe fun _ => rfl).mpr safe

theorem tripCheck_logSafe (safe : s.LogSafe) (z : ZoneId) : (tripCheck z s).LogSafe := by
  unfold tripCheck
  dsimp only
  split
  · exact safe
  · split
    · split
      · exact occur_logSafe (s := setZoneRecord z _ s) safe z.number_lt (by decide) _
      · exact safe
    · split
      · exact endCondition_logSafe (s := setZoneRecord z _ s) safe rfl z.number
      · exact safe
    · exact safe
    · exact safe

theorem ladderUp_logSafe (safe : s.LogSafe) (z : ZoneId) : (ladderUp z s).LogSafe := by
  unfold ladderUp
  dsimp only
  split
  · exact safe
  · split <;> exact safe

theorem ladderUpdate_logSafe (safe : s.LogSafe) (z : ZoneId) : (ladderUpdate z s).LogSafe := by
  unfold ladderUpdate
  dsimp only
  split
  · exact safe
  · split
    · exact ladderUp_logSafe safe z
    · split <;> exact safe

theorem zoneSwitch_logSafe (safe : s.LogSafe) (z : ZoneId) : (zoneSwitch z s).LogSafe := by
  unfold zoneSwitch
  split
  · exact ladderUp_logSafe (tripCheck_logSafe safe z) z
  · exact safe

theorem recomputeThermal_logSafe (safe : s.LogSafe) : (recomputeThermal s).LogSafe :=
  (recomputeThermal_limited s).logSafe safe

theorem zonesSwitch_logSafe (safe : s.LogSafe) : (zonesSwitch s).LogSafe := by
  refine recomputeThermal_logSafe (inAnyOrder_keeps State.LogSafe (fun _ _ h => h) _ ?_ s safe)
  simp only [List.mem_cons, List.not_mem_nil, or_false]
  rintro f (rfl | rfl | rfl | rfl) t safe <;> exact zoneSwitch_logSafe safe _

theorem updateZone_logSafe (safe : s.LogSafe) (z : ZoneId) (sum : Int) : (updateZone z sum s).LogSafe := by
  have checked : (tripCheck z (setZoneRecord z ((s.zones.get z).estimated (rawOf sum)) s)).LogSafe :=
    tripCheck_logSafe (s := setZoneRecord z _ s) safe z
  unfold updateZone
  dsimp only
  split
  · exact recomputeThermal_logSafe (ladderUp_logSafe checked z)
  · exact recomputeThermal_logSafe (ladderUpdate_logSafe checked z)

theorem announceSwitch_logSafe (safe : s.LogSafe) : (announceSwitch s).LogSafe := by
  refine inAnyOrder_keeps State.LogSafe (fun _ _ h => h) _ ?_ s safe
  simp only [List.mem_cons, List.not_mem_nil, or_false]
  rintro f (rfl | rfl | rfl | rfl | rfl) t safe
  · exact zonesSwitch_logSafe safe
  · exact (accountSwitch_limited _ t).logSafe safe
  · exact (accountSwitch_limited _ t).logSafe safe
  · exact (accountSwitch_limited _ t).logSafe safe
  · exact (recomputeShares_offered t).logSafe safe

theorem deriveColumn_logSafe (safe : s.LogSafe) : (deriveColumn s).LogSafe := by
  unfold deriveColumn
  dsimp only
  split
  · exact safe
  · exact announceSwitch_logSafe (s := { s with column := _ }) safe

theorem deriveEffective_logSafe (safe : s.LogSafe) : (deriveEffective s).LogSafe := by
  unfold deriveEffective
  dsimp only
  split
  · exact safe
  · exact deriveColumn_logSafe (s := raise .posture { s with effective := _ }) safe

theorem clearCapS_logSafe (safe : s.LogSafe) (d : DomainId) : (clearCapS d s).LogSafe := by
  unfold clearCapS
  dsimp only
  split
  · exact safe
  · exact (offerCaps_offered d _).logSafe (s := { s with caps := _ }) safe

theorem dropSystemHint_logSafe (safe : s.LogSafe) : (dropSystemHint s).LogSafe := by
  unfold dropSystemHint
  split
  · exact deriveEffective_logSafe (s := dropHint s) safe
  · exact safe

/-- Leaving ACTIVE makes the log safe, whatever records it holds (R149). -/
theorem leaveActive_logSafe (h : s.LogSummed) : (leaveActive s).LogSafe := by
  have left : (raise .mode { s with mode := .safe }).LogSafe := State.LogSummed.logSafe_of_safe h rfl
  refine inAnyOrder_keeps State.LogSafe (fun _ _ h => h) _ ?_ _ left
  simp only [List.mem_cons, List.not_mem_nil, or_false]
  rintro f (rfl | rfl | rfl | rfl | rfl) t safe
  · exact deriveColumn_logSafe safe
  · exact clearCapS_logSafe safe _
  · exact clearCapS_logSafe safe _
  · exact clearCapS_logSafe safe _
  · exact dropSystemHint_logSafe safe

/-- An occurrence that in ACTIVE leaves the mode keeps the log safe, FATAL or not (R149, R153). -/
theorem occurFatal_logSafe (safe : s.LogSafe) {kind : FaultKind} {n : Nat} (subject : n < kind.subjects)
    (value : Option Int) : (occurFatal kind n value s).LogSafe := by
  have summed := occur_logSummed safe.summed subject value
  cases mode : s.mode with
  | safe =>
    rw [occurFatal_safe _ _ _ _ mode]
    exact summed.logSafe_of_safe (((occur_logged kind n value s).same State.mode fun _ => rfl).trans mode)
  | active =>
    rw [occurFatal_active _ _ _ _ mode]
    exact leaveActive_logSafe summed

theorem followSources_logSafe (safe : s.LogSafe) (z : ZoneId) : (followSources z s).LogSafe := by
  unfold followSources
  dsimp only
  split
  · exact safe
  · split
    · exact occurFatal_logSafe (s := setZoneRecord z _ s) safe z.number_lt none
    · exact endCondition_logSafe (s := setZoneRecord z _ s) safe rfl z.number

theorem followAllSources_logSafe (safe : s.LogSafe) : (followAllSources s).LogSafe := by
  refine inAnyOrder_keeps State.LogSafe (fun _ _ h => h) _ (fun f hf t safe => ?_) s safe
  obtain ⟨z, rfl⟩ := mem_followAll hf
  exact followSources_logSafe safe z

/-- A comparison ends LINE_STUCK at most (R139). -/
theorem compareLine_logSafe (safe : s.LogSafe) (l : LineId) (e : Comparison) : (compareLine l e s).LogSafe := by
  unfold compareLine
  dsimp only
  split
  · split <;> exact safe
  · split
    · exact endCondition_logSafe (s := setLineRecord l _ s) safe rfl l.number
    · exact safe

theorem deriveLine_logSafe (safe : s.LogSafe) (fresh : Bool) (l : LineId) : (deriveLine fresh l s).LogSafe := by
  unfold deriveLine
  dsimp only
  split
  · exact compareLine_logSafe (s := setLineRecord l _ s) safe l .driven
  · exact safe

theorem endEventWith_logSafe (safe : s.LogSafe) (fresh : Option LineId) : (endEventWith fresh s).LogSafe := by
  have derived := fun b0 b1 b2 b3 =>
    deriveLine_logSafe (deriveLine_logSafe (deriveLine_logSafe (deriveLine_logSafe safe b0 .thr0) b1 .thr1) b2 .thr2)
      b3 .thr3
  unfold endEventWith
  dsimp only
  split <;> exact derived _ _ _ _

theorem endEvent_logSafe (safe : s.LogSafe) : (endEvent s).LogSafe := endEventWith_logSafe safe none

end Sys2Proof.Machine

/-! # What the commands do to the log, its summary and the mode (R142 to R153) -/

namespace Sys2Proof.Machine

open Sys2Proof

variable {s : State}

/-! ## Sensing (chapter 1) -/

theorem await_logSafe (safe : s.LogSafe) (w : Timer) : (await w s).LogSafe := by
  unfold await
  split <;> exact safe

theorem startConversion_logSafe (safe : s.LogSafe) : (startConversion s).LogSafe :=
  (startConversion_same State.LogSafe (fun _ _ _ => rfl) s).mpr safe

theorem requestConversion_logSafe (safe : s.LogSafe) (c : TempId) : (requestConversion c s).LogSafe := by
  unfold requestConversion
  split
  · exact occur_logSafe safe c.number_lt (by decide) none
  · exact startConversion_logSafe (s := { s with queue := s.queue ++ [c] }) safe

theorem sourcesChanged_logSafe (safe : s.LogSafe) : (sourcesChanged s).LogSafe :=
  endEvent_logSafe (followAllSources_logSafe safe)

/-- A channel that enters or leaves FAILED reports it, and the zones follow (R10, R63). -/
theorem changeTemp_logSafe (safe : s.LogSafe) (c : TempId) (v next : TempChannel) :
    (changeTemp c v next s).LogSafe := by
  have stored : (setTempRecord c next s).LogSafe := safe
  unfold changeTemp
  dsimp only
  split
  · exact sourcesChanged_logSafe (occur_logSafe stored c.number_lt (by decide) _)
  · split
    · exact sourcesChanged_logSafe (endCondition_logSafe stored rfl c.number)
    · exact stored

theorem handleOutcome_logSafe (safe : s.LogSafe) (j : Conversion) (result : RawResult) :
    (handleOutcome j result s).LogSafe := by
  unfold handleOutcome
  dsimp only
  split <;> exact changeTemp_logSafe safe _ _ _

theorem ownSetChannel_logSafe (safe : s.LogSafe) (r : ChannelRequest) : (ownSetChannel r s).1.LogSafe := by
  have voided : ∀ c queue, (voidConversion c { s with queue := queue }).LogSafe := fun _ _ => safe
  unfold ownSetChannel configureChannel
  split
  · exact safe
  · dsimp only
    split
    · exact safe
    · split
      · exact safe
      · dsimp only
        split
        · exact safe
        · split
          · exact safe
          · exact safe
          · exact changeTemp_logSafe (voided _ _) _ _ _
          · exact changeTemp_logSafe (voided _ s.queue) _ _ _

/-! ## Samples (R15 to R19) -/

/-- A judged delivery reports EXCESS or its end at most (R121, R126). -/
theorem judgeDelivery_logSafe (safe : s.LogSafe) (d : DomainId) (power : Nat) : (judgeDelivery d power s).LogSafe := by
  have stored : ∀ c, (setCompliance d c s).LogSafe := fun _ => safe
  unfold judgeDelivery
  dsimp only
  split
  · split
    · exact safe
    · split
      · split
        · exact occur_logSafe (stored _) d.number_lt (by decide) _
        · exact stored _
      · exact stored _
  · split
    · split
      · exact endCondition_logSafe (stored _) rfl d.number
      · exact stored _
    · exact stored _

theorem complianceDelivery_logSafe (safe : s.LogSafe) (d : DomainId) (q : Quality) (power : Nat) :
    (complianceDelivery d q power s).LogSafe := by
  cases q with
  | valid => exact judgeDelivery_logSafe safe d power
  | held => exact judgeDelivery_logSafe safe d power
  | substitute =>
    unfold complianceDelivery substituteCompliance
    dsimp only
    split
    · exact safe
    · exact endCondition_logSafe (s := setCompliance d _ s) safe rfl d.number

theorem deliverToDomain_logSafe (safe : s.LogSafe) (d : DomainId) (v : PowerChannel) :
    (deliverToDomain d v s).LogSafe := by
  unfold deliverToDomain
  split
  · exact safe
  · exact endEvent_logSafe ((accountDelivery_limited _ _ _ _).logSafe (complianceDelivery_logSafe safe _ _ _))

/-- The arbiter recomputes, and the event ends (R98, R103). -/
theorem recomputeShares_ended_logSafe (safe : s.LogSafe) : (endEvent (recomputeShares s)).LogSafe :=
  endEvent_logSafe ((recomputeShares_offered s).logSafe safe)

theorem restChange_logSafe (safe : s.LogSafe) (before : Nat) : (restChange before s).LogSafe := by
  unfold restChange
  split
  · exact safe
  · exact recomputeShares_ended_logSafe safe

/-- A judged delivery at the watch ends SUPPLY_TRIP at most (R107). -/
theorem watchDelivery_logSafe (safe : s.LogSafe) (power : Nat) : (watchDelivery power s).LogSafe := by
  unfold watchDelivery
  dsimp only
  split
  · exact safe
  · exact safe
  · split
    · exact endCondition_logSafe (s := { s with watch := _ }) safe rfl 0
    · exact safe

theorem deliverToWatch_logSafe (safe : s.LogSafe) (old : ChannelState) (v : PowerChannel) :
    (deliverToWatch old v s).LogSafe := by
  unfold deliverToWatch watchFailure
  split
  · exact endEvent_logSafe (watchDelivery_logSafe safe _)
  · exact endEvent_logSafe (watchDelivery_logSafe safe _)
  · split
    · exact safe
    · split <;> exact safe
  · exact safe
  · exact safe

theorem deliver_logSafe (safe : s.LogSafe) (n : PowerId) (old v : PowerChannel) : (deliver n old v s).LogSafe := by
  cases n with
  | pm0 => exact deliverToDomain_logSafe safe .d0 v
  | pm1 => exact deliverToDomain_logSafe safe .d1 v
  | pm2 => exact deliverToDomain_logSafe safe .d2 v
  | pm3 => exact restChange_logSafe safe _
  | pm4 => exact deliverToWatch_logSafe safe old.state v

theorem reportPower_logSafe (safe : s.LogSafe) (n : PowerId) (old new : ChannelState) :
    (reportPower n old new s).LogSafe := by
  unfold reportPower
  split
  · exact occur_logSafe safe n.number_lt (by decide) none
  · split
    · exact endCondition_logSafe safe rfl n.number
    · exact safe

theorem ownSetPowerChannel_logSafe (safe : s.LogSafe) (r : PowerChannelRequest) :
    (ownSetPowerChannel r s).1.LogSafe := by
  unfold ownSetPowerChannel configurePower
  split
  · exact safe
  · split
    · exact safe
    · dsimp only
      split
      · exact restChange_logSafe (s := { setPowerRecord _ _ s with restFail := _ }) safe _
      all_goals exact safe

/-! ## Posture (R23 to R38) -/

theorem commit_logSafe (safe : s.LogSafe) (candidate : Place) : (commit candidate s).LogSafe := by
  unfold commit
  dsimp only
  split
  · split <;> exact safe
  · exact safe

theorem reclassify_logSafe (safe : s.LogSafe) : (reclassify s).LogSafe := by
  have stored : ∀ candidate, State.LogSafe { s with candidate := candidate } := fun _ => safe
  unfold reclassify setDwell
  dsimp only
  split
  · exact safe
  · split
    · exact safe
    · split
      · exact safe
      · exact commit_logSafe (stored _) _
      · exact safe

theorem classifierEvent_logSafe (safe : s.LogSafe) (l : InputId) (edge : Bool) :
    (classifierEvent l edge s).LogSafe := by
  unfold classifierEvent
  refine deriveEffective_logSafe (reclassify_logSafe ?_)
  split <;> exact safe

theorem takeLevel_logSafe (safe : s.LogSafe) (l : InputId) (asserted : Bool) : (takeLevel l asserted s).LogSafe := by
  have noticed : ∀ (c : Bool) (k : NoticeKind) (inputs : PerInput InputLine),
      (if c then raise k { s with inputs := inputs } else { s with inputs := inputs }).LogSafe := by
    intro c k inputs
    split <;> exact safe
  cases l with
  | acin =>
    refine endEvent_logSafe (inAnyOrder_keeps State.LogSafe (fun _ _ h => h) _ ?_ _ (noticed _ _ _))
    simp only [List.mem_cons, List.not_mem_nil, or_false]
    rintro f (rfl | rfl) t safe
    · exact classifierEvent_logSafe safe _ _
    · exact (recomputeShares_offered t).logSafe safe
  | lid | motion | contact => exact endEvent_logSafe (classifierEvent_logSafe (noticed _ _ _) _ _)

theorem startDebounce_logSafe (safe : s.LogSafe) (l : InputId) (asserted : Bool) :
    (startDebounce l asserted s).LogSafe := by
  unfold startDebounce
  dsimp only
  split
  · exact takeLevel_logSafe safe l asserted
  · exact safe

theorem levelChange_logSafe (safe : s.LogSafe) (l : InputId) : (levelChange l s).LogSafe := by
  unfold levelChange
  dsimp only
  split
  · exact safe
  · exact startDebounce_logSafe safe _ _

theorem ownSetInput_logSafe (safe : s.LogSafe) (r : InputRequest) : (ownSetInput r s).1.LogSafe := by
  have stored : ∀ inputs, State.LogSafe { s with inputs := inputs } := fun _ => safe
  unfold ownSetInput configureInput
  split
  · exact safe
  · dsimp only
    split
    · exact levelChange_logSafe (stored _) _
    · split
      · split
        · exact startDebounce_logSafe (stored _) _ _
        · exact safe
      · exact safe

theorem commitCandidate_logSafe (safe : s.LogSafe) : (commitCandidate s).LogSafe := by
  unfold commitCandidate
  split
  · exact safe
  · exact endEvent_logSafe (deriveEffective_logSafe (commit_logSafe safe _))

theorem placeHint_logSafe (safe : s.LogSafe) (hint : Option Hint) : (placeHint hint s).LogSafe := by
  unfold placeHint
  split
  · exact safe
  · exact endEvent_logSafe (deriveEffective_logSafe (s := { s with hint := hint }) safe)

/-- A hint is refused, or placed in the slot (R32 to R35). -/
theorem ownPostureHint_logSafe (safe : s.LogSafe) (port : Port) (code : HintCode) :
    (ownPostureHint port code s).1.LogSafe := by
  cases code with
  | unsettled => exact safe
  | noHint =>
    rw [ownPostureHint_noHint]
    split
    · exact safe
    · exact placeHint_logSafe safe _
  | place h =>
    rw [ownPostureHint_place]
    split
    · exact safe
    · exact placeHint_logSafe safe _

/-! ## Profile table, domains and supply -/

theorem ownSetProfile_logSafe (safe : s.LogSafe) (r : ProfileRequest) : (ownSetProfile r s).1.LogSafe := by
  have stored : ∀ profile, State.LogSafe { s with profile := profile } := fun _ => safe
  unfold ownSetProfile storeEntry
  split
  · split
    · dsimp only
      split
      · exact endEvent_logSafe ((reselectDomain_limited _ _).logSafe (stored _))
      · exact safe
    · exact safe
  · exact safe

theorem ownSetSkinLimits_logSafe (safe : s.LogSafe) (r : SkinRequest) : (ownSetSkinLimits r s).1.LogSafe := by
  have stored : ∀ skin, State.LogSafe { s with skin := skin } := fun _ => safe
  unfold ownSetSkinLimits storeLimits reselectZone
  split
  · exact safe
  · split
    · dsimp only
      split
      · exact safe
      · exact endEvent_logSafe (recomputeThermal_logSafe (zoneSwitch_logSafe (stored _) _))
    · exact safe

theorem onlyIf_logSafe {f : State → State} (each : s.LogSafe → (f s).LogSafe) (condition : Bool) (safe : s.LogSafe) :
    (onlyIf condition f s).LogSafe := by
  unfold onlyIf
  split
  · exact each safe
  · exact safe

/-- The effects of a changed domain record stay within limits and counts (R114). -/
theorem configureDomain_logSafe (safe : s.LogSafe) (d : DomainId) (r : DomainRecord) :
    (configureDomain d r s).LogSafe := by
  unfold configureDomain
  dsimp only
  split
  · exact safe
  · refine endEvent_logSafe (inAnyOrder_keeps State.LogSafe (fun _ _ h => h) _ ?_ { s with domains := _ } safe)
    simp only [List.mem_cons, List.not_mem_nil, or_false]
    rintro f (rfl | rfl | rfl | rfl) t
    · exact onlyIf_logSafe (accountRecover_limited d t).logSafe _
    · exact onlyIf_logSafe (recomputeShares_offered t).logSafe _
    · exact onlyIf_logSafe (resolve_offered d t).logSafe _
    · exact onlyIf_logSafe (f := zeroCounts d) (fun safe => safe) _

theorem ownSetDomain_logSafe (safe : s.LogSafe) (r : DomainRequest) : (ownSetDomain r s).1.LogSafe := by
  unfold ownSetDomain
  split
  · exact safe
  · split
    · exact configureDomain_logSafe safe _ _
    · exact safe

theorem ownSetCap_logSafe (safe : s.LogSafe) (port : Port) (r : CapRequest) : (ownSetCap port r s).1.LogSafe := by
  have stored : ∀ caps, State.LogSafe { s with caps := caps } := fun _ => safe
  unfold ownSetCap storeCap
  split
  · exact safe
  · dsimp only
    split
    · exact safe
    · exact endEvent_logSafe ((offerCaps_offered _ _).logSafe (stored _))

theorem ownSetSupplyConfig_logSafe (safe : s.LogSafe) (c : SupplyConfig) : (ownSetSupplyConfig c s).1.LogSafe := by
  unfold ownSetSupplyConfig configureSupply
  split
  · dsimp only
    split
    · exact safe
    · exact recomputeShares_ended_logSafe (s := { s with supplyCfg := _ }) safe
  · exact safe

theorem ownSupplyReport_logSafe (safe : s.LogSafe) (r : ReportRequest) : (ownSupplyReport r s).1.LogSafe :=
  recomputeShares_ended_logSafe (s := { s with report := _ }) safe

/-- SUPPLY_TRIP is FATAL (R106). -/
theorem supplyTrips_logSafe (safe : s.LogSafe) : (supplyTrips s).LogSafe :=
  endEvent_logSafe (occurFatal_logSafe (s := { s with watch := { s.watch with state := .tripped } }) safe
    (kind := .supplyTrip) Nat.zero_lt_one _)

/-! ## Mode -/

/-- With no FATAL record the mode may become ACTIVE (R149, R151). -/
theorem becomeActive_logSafe (safe : s.LogSafe) (quiet : s.NoFatal) : (becomeActive s).LogSafe := by
  have active : (raise .mode { s with mode := .active }).LogSafe := (logSafe_iff _).mpr ⟨safe.summed, fun _ => quiet⟩
  exact endEvent_logSafe (deriveColumn_logSafe active)

/-- Check 1 of R150 finds a FATAL record, where there is one. -/
theorem fatalCheck_iff (log : List FaultRecord) :
    log.any (fun r => r.severity == .fatal) = true ↔ ∃ r ∈ log, r.severity = .fatal := by
  simp

/-- ACTIVATE fails one of its checks, or changes the mode (R150, R151). -/
theorem ownActivate_logSafe (safe : s.LogSafe) (u : Unit) : (ownActivate u s).1.LogSafe := by
  unfold ownActivate
  split
  · exact safe
  · split
    · exact safe
    · rename_i unfound
      split
      · exact safe
      · split
        · exact safe
        · exact becomeActive_logSafe safe fun r hr fatal => unfound ((fatalCheck_iff _).mpr ⟨r, hr, fatal⟩)

theorem ownDeactivate_logSafe (safe : s.LogSafe) (u : Unit) : (ownDeactivate u s).1.LogSafe := by
  unfold ownDeactivate
  split
  · exact endEvent_logSafe (leaveActive_logSafe safe.summed)
  · exact safe

/-! ## Zones -/

theorem ownSetLadder_logSafe (safe : s.LogSafe) (r : LadderRequest) : (ownSetLadder r s).1.LogSafe := by
  have stored : ∀ z v, (setZoneRecord z v s).LogSafe := fun _ _ => safe
  have moved : ∀ z v n, (moveTo z n (setZoneRecord z v s)).LogSafe := fun _ _ _ => safe
  unfold ownSetLadder configureLadder
  split
  · exact safe
  · split
    · dsimp only
      split
      · exact safe
      · split
        · exact endEvent_logSafe (recomputeThermal_logSafe (moved _ _ _))
        · exact endEvent_logSafe (recomputeThermal_logSafe (stored _ _))
    · exact safe

/-- A zone that SET_ZONE restarts or disables ends its trip (R71, R72). -/
theorem leaveZone_logSafe (safe : s.LogSafe) (z : ZoneId) (v : Zone) : (leaveZone z v s).LogSafe := by
  unfold leaveZone
  dsimp only
  cases v.state with
  | tripped => split <;> exact endCondition_logSafe safe rfl z.number
  | off | starting | active => split <;> exact safe

theorem configureZone_logSafe (safe : s.LogSafe) (z : ZoneId) (cfg : ZoneConfig) :
    (configureZone z cfg s).LogSafe := by
  have restarted : ∀ v w,
      (endEvent (recomputeThermal (followSources z (leaveZone z v (setZoneRecord z w s))))).LogSafe := fun v w =>
    endEvent_logSafe (recomputeThermal_logSafe (followSources_logSafe
      (leaveZone_logSafe (s := setZoneRecord z w s) safe z v) z))
  unfold configureZone
  dsimp only
  split
  · exact safe
  · split
    · exact safe
    · exact restarted _ _
    · exact restarted _ _

theorem ownSetZone_logSafe (safe : s.LogSafe) (r : ZoneRequest) : (ownSetZone r s).1.LogSafe := by
  unfold ownSetZone
  split
  · split
    · exact configureZone_logSafe safe _ _
    · exact safe
  · exact safe

/-! ## Lines -/

/-- LINE_STUCK is FATAL (R139). -/
theorem lineSticks_logSafe (safe : s.LogSafe) (l : LineId) : (lineSticks l s).LogSafe :=
  endEvent_logSafe (occurFatal_logSafe (s := setLineRecord l _ s) safe l.number_lt none)

theorem ownForceLine_logSafe (safe : s.LogSafe) (r : ForceRequest) : (ownForceLine r s).1.LogSafe := by
  unfold ownForceLine
  split
  · exact safe
  · dsimp only
    split
    · exact safe
    · exact endEvent_logSafe (s := setLineRecord _ _ s) safe

theorem ownSetRouting_logSafe (safe : s.LogSafe) (r : RoutingRequest) : (ownSetRouting r s).1.LogSafe := by
  unfold ownSetRouting configureLine
  split
  · exact safe
  · split
    · dsimp only
      split
      · exact safe
      · exact endEventWith_logSafe (s := setLineRecord _ _ s) safe _
    · exact safe

end Sys2Proof.Machine

/-! # Every step keeps the log (R142, R144, R145, R148, R149) -/

namespace Sys2Proof.Machine

open Sys2Proof

/-- A request keeps the log safe where its owner does. -/
theorem request_logSafe {α : Type} {kind : Kind} {call : Call} {shape : List Byte → Option α}
    {owner : Port → α → State → State × Reply} {body : List Byte} {s t : State} (safe : s.LogSafe)
    (h : atPort call (fun port => takeRequest kind port shape (owner port) body) s = .next t)
    (own : ∀ r, (owner call.port r s).1.LogSafe) : t.LogSafe :=
  atPort_keeps State.LogSafe call _ s t safe
    (takeRequest_keeps State.LogSafe (fun _ _ h => h) kind call.port shape (owner call.port) body s safe
      fun _ r _ _ => own r) h

/-- Every bus transaction keeps the log safe. -/
theorem transaction_logSafe (i : Instr) (s t : State) (hc : (callOf i).isSome = true) (safe : s.LogSafe)
    (h : exec i s = .next t) : t.LogSafe := by
  cases i <;> simp only [exec] at h
  case badFrame =>
    exact atPort_keeps _ _ _ s t safe (takeWrite_keeps State.LogSafe (fun _ _ h => h) _ _ _ s safe fun _ _ => safe) h
  case unknown =>
    refine atPort_keeps _ _ _ s t safe
      (takeWrite_keeps State.LogSafe (fun _ _ h => h) _ _ _ s safe fun received _ => ?_) h
    split <;> exact safe
  case replyRead => exact atPort_keeps State.LogSafe _ _ s t safe safe h
  case identify | readStatus | readGrants | readFaults | readNotices | clearNotices | setNoticeMask |
      setPostureTiming =>
    exact request_logSafe safe h fun _ => safe
  case readDomain =>
    refine request_logSafe safe h fun r => ?_
    unfold ownReadDomain
    split
    · exact safe
    · split <;> exact safe
  case readZone =>
    refine request_logSafe safe h fun r => ?_
    unfold ownReadZone
    split <;> exact safe
  case readChannel =>
    refine request_logSafe safe h fun r => ?_
    unfold ownReadChannel
    split <;> split <;> exact safe
  case clearFaults => exact request_logSafe safe h (ownClearFaults_logSafe safe)
  case setChannel => exact request_logSafe safe h (ownSetChannel_logSafe safe)
  case setPowerChannel => exact request_logSafe safe h (ownSetPowerChannel_logSafe safe)
  case setInput => exact request_logSafe safe h (ownSetInput_logSafe safe)
  case setZone => exact request_logSafe safe h (ownSetZone_logSafe safe)
  case setLadder => exact request_logSafe safe h (ownSetLadder_logSafe safe)
  case setProfile => exact request_logSafe safe h (ownSetProfile_logSafe safe)
  case setSkinLimits => exact request_logSafe safe h (ownSetSkinLimits_logSafe safe)
  case setDomain => exact request_logSafe safe h (ownSetDomain_logSafe safe)
  case setRouting => exact request_logSafe safe h (ownSetRouting_logSafe safe)
  case setSupplyConfig => exact request_logSafe safe h (ownSetSupplyConfig_logSafe safe)
  case supplyReport => exact request_logSafe safe h (ownSupplyReport_logSafe safe)
  case setCap call body => exact request_logSafe safe h (ownSetCap_logSafe safe call.port)
  case postureHint call body => exact request_logSafe safe h (ownPostureHint_logSafe safe call.port)
  case forceLine => exact request_logSafe safe h (ownForceLine_logSafe safe)
  case activate => exact request_logSafe safe h (ownActivate_logSafe safe)
  case deactivate => exact request_logSafe safe h (ownDeactivate_logSafe safe)
  all_goals simp [callOf, requestParts] at hc

/-- An empty log is safe (R143). -/
theorem logSafe_of_empty {s : State} (empty : s.faults = []) (clear : s.severity = .clear) : s.LogSafe := by
  rw [logSafe_iff, State.LogSummed, State.NoFatal, empty, clear]
  exact ⟨⟨⟨fun r hr => (by cases hr), List.nodup_nil⟩, rfl⟩, fun _ r hr => (by cases hr)⟩

/-- An event keeps the log safe where its effect outside a reset does. -/
theorem outsideReset_logSafe {f : State → State} {s t : State} (safe : s.LogSafe) (h : outsideReset f s = .next t)
    (own : (f s).LogSafe) : t.LogSafe :=
  outsideReset_keeps State.LogSafe f s t safe own h

/-- Every event keeps the log safe. -/
theorem event_logSafe (i : Instr) (s t : State) (hc : callOf i = none) (safe : s.LogSafe) (h : exec i s = .next t) :
    t.LogSafe := by
  have due : ∀ w, (await w s).LogSafe := await_logSafe safe
  cases i <;> simp only [exec] at h
  case reset edge pins lines => cases edge <;> cases h <;> exact logSafe_of_empty rfl rfl
  case intervalTimerExpiry c =>
    refine outsideReset_logSafe safe h ?_
    split
    · exact safe
    · rename_i w _
      exact requestConversion_logSafe (s := setTempRecord c _ (await w s)) (due w) c
  case conversionEnd result =>
    refine outsideReset_logSafe safe h ?_
    split
    · exact safe
    · rename_i j _
      have idle : State.LogSafe { await j.timer s with converter := none } := due j.timer
      refine startConversion_logSafe ?_
      split
      · exact idle
      · exact handleOutcome_logSafe idle j result
  case sampleArrival n sample =>
    refine outsideReset_logSafe safe h ?_
    refine deliver_logSafe (reportPower_logSafe ?_ n _ _) n _ _
    exact due (s.powers.get n).timer
  case tripTimerExpiry =>
    refine outsideReset_logSafe safe h ?_
    split
    · exact supplyTrips_logSafe (due _)
    · exact safe
    · exact safe
  case inputLevelChange l high =>
    have stored : ∀ inputs, State.LogSafe { s with inputs := inputs } := fun _ => safe
    refine outsideReset_logSafe safe h ?_
    dsimp only
    split
    · exact safe
    · exact levelChange_logSafe (stored _) l
  case debounceExpiry l =>
    refine outsideReset_logSafe safe h ?_
    split
    · exact safe
    · exact takeLevel_logSafe (due _) l _
  case dwellExpiry =>
    refine outsideReset_logSafe safe h ?_
    split
    · exact safe
    · exact commitCandidate_logSafe (due _)
  case zoneUpdate z =>
    refine outsideReset_logSafe safe h ?_
    split
    · exact safe
    · rename_i w _
      have restarted : ∀ v, (setZoneRecord z v (await w s)).LogSafe := fun _ => due w
      dsimp only
      split
      · exact restarted _
      · exact endEvent_logSafe (updateZone_logSafe (restarted _) z _)
  case settleTimerExpiry d =>
    refine outsideReset_logSafe safe h ?_
    split
    · exact safe
    · rename_i w _
      exact due w
  case sensedLevelChange l high =>
    refine outsideReset_logSafe safe h ?_
    dsimp only
    split
    · exact safe
    · exact compareLine_logSafe (s := setLineRecord l _ s) safe l .sensed
  case readbackWindowExpiry l =>
    refine outsideReset_logSafe safe h ?_
    split
    · exact safe
    · exact lineSticks_logSafe (due _) l
  all_goals simp [callOf, requestParts] at hc

theorem exec_logSafe (i : Instr) (s t : State) (safe : s.LogSafe) (h : exec i s = .next t) : t.LogSafe := by
  cases hc : callOf i with
  | none => exact event_logSafe i s t hc safe h
  | some call => exact transaction_logSafe i s t (by simp [hc]) safe h

/-- Settles O58: time leaves the log, and every command keeps it safe. -/
theorem everyStepKeepsTheLog : Obligations.EveryStepKeepsTheLog := by
  intro s t safe e
  unfold step at e
  split at e
  · exact outsideReset_logSafe (f := elapse 1) safe e safe
  · rename_i i rest _
    exact exec_logSafe i { s with pending := rest } t safe e

end Sys2Proof.Machine

/-! # Occurrences, ends and CLEAR_FAULTS at the fault log (R142, R144 to R148) -/

namespace Sys2Proof.Machine

open Sys2Proof

/-! ## Tables -/

/-- The FATAL kinds (R142). -/
theorem severity_eq (kind : FaultKind) :
    kind.severity =
      if kind = .zoneBlind ∨ kind = .lineStuck ∨ kind = .supplyTrip then .fatal else .warning := by
  cases kind <;> rfl

/-- Every kind but CONV_OVERRUN is a condition (R142). -/
theorem isCondition_iff (kind : FaultKind) : kind.isCondition = true ↔ kind ≠ .convOverrun := by
  cases kind <;> decide

/-- The summary of R148. -/
theorem summaryOf_eq (log : List FaultRecord) :
    summaryOf log = if ∃ r ∈ log, r.severity = .fatal then .fatal else if log = [] then .clear else .warning := by
  unfold summaryOf
  simp only [fatalCheck_iff, List.isEmpty_iff]

/-- The record of a first occurrence (R144). -/
theorem newRecord_eq (kind : FaultKind) (n : Nat) (value : Option Int) (uptime : Nat) :
    newRecord kind n value uptime =
      { kind := kind, subject := n
        severity := if kind = .zoneBlind ∨ kind = .lineStuck ∨ kind = .supplyTrip then .fatal else .warning
        present := if kind = .convOverrun then none else some true, count := 1, firstTime := uptime
        lastTime := uptime, firstValue := value } := by
  rw [newRecord, severity_eq]
  simp only [isCondition_iff, ite_not]

/-- The record of a recurrence (R145). -/
theorem recur_eq (uptime : Nat) (r : FaultRecord) :
    r.recur uptime =
      { r with
        count := min 255 (r.count + 1), lastTime := uptime
        present := if r.kind = .convOverrun then r.present else some true } := by
  simp only [FaultRecord.recur, isCondition_iff, ite_not]

/-! ## Reports -/

/-- A recurrence counts the records of its pair on, and changes nothing else (R145). -/
theorem occur_recurs {kind : FaultKind} {n : Nat} {value : Option Int} {s : State}
    (known : ∃ r ∈ s.faults, r.kind = kind ∧ r.subject = n) :
    occur kind n value s =
      { s with
        faults := s.faults.map fun r =>
          if r.kind = kind ∧ r.subject = n then
            { r with
              count := min 255 (r.count + 1), lastTime := s.uptime
              present := if kind = .convOverrun then r.present else some true }
          else r } := by
  rw [occur_again _ _ _ _ ((logHolds_iff _ _ _).mpr known)]
  have same : ∀ r ∈ s.faults,
      (if r.isOf kind n then r.recur s.uptime else r) =
        if r.kind = kind ∧ r.subject = n then
          { r with
            count := min 255 (r.count + 1), lastTime := s.uptime
            present := if kind = .convOverrun then r.present else some true }
        else r := by
    intro r _
    simp only [isOf_iff]
    split
    · rename_i own
      rw [recur_eq, own.1]
    · rfl
  rw [List.map_congr_left same]

/-- An end marks the records of its pair not present, and changes nothing else (R146). -/
theorem endCondition_marks (kind : FaultKind) (n : Nat) (s : State) :
    endCondition kind n s =
      { s with
        faults := s.faults.map fun r =>
          if r.kind = kind ∧ r.subject = n then { r with present := some false } else r } := by
  simp only [endCondition, isOf_iff]

/-! ## CLEAR_FAULTS -/

/-- A request without a body on a port's own address comes to the checks of its kind. -/
theorem emptyRequest_checked {kind : Kind} {port : Port} {owner : Port → Unit → State → State × Reply} {s : State}
    (running : s.inReset = false) :
    atPort (s.call port) (fun port => takeRequest kind port shapeEmpty (owner port) []) s =
      .next (checkRequest kind port shapeEmpty (owner port) [] s) := by
  rw [atPort_call _ _ _ running, takeRequest_frame _ _ _ _ [] _ (Nat.zero_le 60)]

/-- A request without a body that is not listed for Port S is answered DENIED there (check 3 of R169). -/
theorem emptyRequest_denied {kind : Kind} {owner : Port → Unit → State → State × Reply} {s : State}
    (running : s.inReset = false) (unlisted : portListed kind .system = false) :
    atPort (s.call .system) (fun port => takeRequest kind port shapeEmpty (owner port) []) s =
      .next (answer .system kind (.bare .denied) s) := by
  rw [emptyRequest_checked running, checkRequest_denied _ _ _ _ _ _ unlisted]

/-- A request without a body that is taken in either mode is its owner's on Port P. -/
theorem emptyRequest_taken {kind : Kind} {owner : Port → Unit → State → State × Reply} {s : State}
    (running : s.inReset = false) (anyMode : modeNamed kind .platform = none) :
    atPort (s.call .platform) (fun port => takeRequest kind port shapeEmpty (owner port) []) s =
      .next (answer .platform kind (owner .platform () s).2 (owner .platform () s).1) := by
  have admitted : Admitted kind .platform s := ⟨rfl, by rw [modeAllows, anyMode]⟩
  rw [emptyRequest_checked running, checkRequest_taken _ _ _ _ _ _ () admitted rfl]

/-- What CLEAR_FAULTS leaves: the conditions present, with their summary and number (R147, R148). -/
theorem ownClearFaults_eq (u : Unit) (s : State) :
    let log := s.faults.filter fun r => r.present = some true
    ownClearFaults u s =
      ({ s with
          faults := log
          severity := if ∃ r ∈ log, r.severity = .fatal then .fatal else if log = [] then .clear else .warning },
        ⟨.ok, [BitVec.ofNat 8 log.length]⟩) := by
  have present : kept s.faults = s.faults.filter fun r => r.present = some true := by
    simp only [kept, beq_eq_decide]
  simp only [ownClearFaults, present, summaryOf_eq, leBytes]

/-- Settles O42: an occurrence by whether the log holds its pair, an end, and CLEAR_FAULTS on either port. -/
theorem faultReportsReachTheLog : Obligations.FaultReportsReachTheLog := by
  refine ⟨?reports, ?clear⟩
  case reports =>
    intro kind subject value s t known fatal
    refine ⟨fun first => ?_, occur_recurs, endCondition_marks kind subject s⟩
    have unheld : logHolds s.faults kind subject = false := Bool.eq_false_iff.mpr (mt (logHolds_iff _ _ _).mp first)
    have logged : t = _ := occur_first kind subject value s unheld
    rw [newRecord_eq] at logged
    refine ⟨by rw [logged]; rfl, by rw [logged]; exact raised_raise .fault _, ?_, occur_logged kind subject value s⟩
    have summary : t.severity = summaryOf t.faults := by rw [logged]; rfl
    have recorded : t.faults ≠ [] := by rw [logged]; simp
    rw [summary, summaryOf_eq, if_neg recorded]
  case clear =>
    intro s running log
    refine ⟨emptyRequest_denied (owner := fun _ => ownClearFaults) running rfl, ?_⟩
    have taken := emptyRequest_taken (kind := .clearFaults) (owner := fun _ => ownClearFaults) running rfl
    rw [ownClearFaults_eq] at taken
    exact taken

end Sys2Proof.Machine

/-! # Leaving ACTIVE (R37, R113, R149, R154) -/

namespace Sys2Proof.Machine

open Sys2Proof

variable {s t : State}

/-! ## Column and caps -/

/-- A derivation of the column in use stores it, and otherwise announces (R40, R41). -/
theorem deriveColumn_switched (s : State) :
    Switched { s with column := columnOf s.mode s.effective } (deriveColumn s) := by
  unfold deriveColumn
  dsimp only
  split
  · rename_i same
    rw [same]
    rfl
  · exact announceSwitch_switched _

/-- A derivation of the effective posture leaves the column of SAFE (R40). -/
theorem deriveEffective_column_of_safe (mode : s.mode = .safe) (column : s.column = .safe) :
    (deriveEffective s).column = .safe := by
  unfold deriveEffective
  dsimp only
  split
  · exact column
  · rw [deriveColumn_column, raise_mode, mode]
    rfl

/-- Clearing CAP_S stores its absence, and otherwise offers (R113). -/
theorem clearCapS_offered (d : DomainId) (s : State) :
    Offered { s with caps := s.caps.set d { s.caps.get d with capS := none } } (clearCapS d s) := by
  unfold clearCapS
  dsimp only
  split
  · rename_i absent
    have same : { s.caps.get d with capS := none } = s.caps.get d := by rw [← absent]
    rw [same, PerDomain.set_get_self]
    rfl
  · exact offerCaps_offered d _

theorem clearCapS_pendingOn {k : NoticeKind} (hk : k ∉ consequenceKinds) (d : DomainId) (s : State) :
    (clearCapS d s).pendingOn k = s.pendingOn k := by
  unfold clearCapS
  dsimp only
  split
  · rfl
  · refine (inAnyOrder_same (State.pendingOn k) (fun _ _ => rfl) _ ?_ _).trans rfl
    simp only [List.mem_cons, List.not_mem_nil, or_false]
    rintro f (rfl | rfl) t
    · exact resolve_pendingOn hk d _
    · exact recomputeShares_pendingOn hk t

/-! ## The hint of Port S -/

theorem dropSystemHint_of_held (held : heldFromSystem s.hint = true) :
    dropSystemHint s = deriveEffective (dropHint s) := if_pos held

theorem dropSystemHint_of_not_held (free : heldFromSystem s.hint = false) : dropSystemHint s = s :=
  if_neg (Bool.eq_false_iff.mp free)

/-- The slot is empty, the committed posture in effect, and HINT_DROPPED raised (section 2.6). -/
def HintDropped (committed : Posture) (t : State) : Prop :=
  t.hint = none ∧ t.effective = committed ∧ Raised .hintDropped t

/-- The drop of a held hint (R37). -/
theorem dropSystemHint_drops (held : heldFromSystem s.hint = true) : HintDropped s.committed (dropSystemHint s) := by
  rw [dropSystemHint_of_held held]
  refine ⟨deriveEffective_hint _, deriveEffective_effective _, ?_⟩
  exact (raised_raise .hintDropped _).of_pendingOn (deriveEffective_pendingOn (by decide) (by decide) _)

theorem dropSystemHint_mode (s : State) : (dropSystemHint s).mode = s.mode := by
  unfold dropSystemHint
  split
  · exact deriveEffective_mode _
  · rfl

theorem dropSystemHint_caps (s : State) : (dropSystemHint s).caps = s.caps := by
  unfold dropSystemHint
  split
  · exact deriveEffective_caps _
  · rfl

theorem dropSystemHint_column_of_safe (mode : s.mode = .safe) (column : s.column = .safe) :
    (dropSystemHint s).column = .safe := by
  unfold dropSystemHint
  split
  · exact deriveEffective_column_of_safe mode column
  · exact column

theorem dropSystemHint_pendingOn_mode (s : State) : (dropSystemHint s).pendingOn .mode = s.pendingOn .mode := by
  unfold dropSystemHint
  split
  · exact (deriveEffective_pendingOn (by decide) (by decide) _).trans (raise_pendingOn_of_ne (by decide) _)
  · rfl

/-! ## All consequences, in any order -/

/-- What follows as the mode leaves ACTIVE (R154). -/
def leaveConsequences : List (State → State) :=
  [deriveColumn, clearCapS .d0, clearCapS .d1, clearCapS .d2, dropSystemHint]

theorem leaveActive_eq (s : State) :
    leaveActive s = inAnyOrder leaveConsequences (raise .mode { s with mode := .safe }) := rfl

/-- Each consequence derives the column, clears a cap, or drops the hint. -/
theorem mem_leaveConsequences {f : State → State} (hf : f ∈ leaveConsequences) :
    f = deriveColumn ∨ (∃ d, f = clearCapS d) ∨ f = dropSystemHint := by
  simp only [leaveConsequences, List.mem_cons, List.not_mem_nil, or_false] at hf
  rcases hf with rfl | rfl | rfl | rfl | rfl
  · exact .inl rfl
  · exact .inr (.inl ⟨_, rfl⟩)
  · exact .inr (.inl ⟨_, rfl⟩)
  · exact .inr (.inl ⟨_, rfl⟩)
  · exact .inr (.inr rfl)

theorem leaveConsequence_mode {f : State → State} (hf : f ∈ leaveConsequences) (s : State) : (f s).mode = s.mode := by
  rcases mem_leaveConsequences hf with rfl | ⟨d, rfl⟩ | rfl
  · exact deriveColumn_mode s
  · exact (clearCapS_offered d s).same State.mode fun _ => rfl
  · exact dropSystemHint_mode s

theorem leaveConsequence_pendingOn_mode {f : State → State} (hf : f ∈ leaveConsequences) (s : State) :
    (f s).pendingOn .mode = s.pendingOn .mode := by
  rcases mem_leaveConsequences hf with rfl | ⟨d, rfl⟩ | rfl
  · exact deriveColumn_pendingOn (by decide) s
  · exact clearCapS_pendingOn (by decide) d s
  · exact dropSystemHint_pendingOn_mode s

/-- A consequence in SAFE leaves the column of SAFE in use. -/
theorem leaveConsequence_column {f : State → State} (hf : f ∈ leaveConsequences) (mode : s.mode = .safe)
    (column : s.column = .safe) : (f s).column = .safe := by
  rcases mem_leaveConsequences hf with rfl | ⟨d, rfl⟩ | rfl
  · rw [deriveColumn_column, mode]
    rfl
  · exact ((clearCapS_offered d s).same State.column fun _ => rfl).trans column
  · exact dropSystemHint_column_of_safe mode column

/-- A consequence leaves a cap record or clears its CAP_S. -/
theorem leaveConsequence_caps {f : State → State} (hf : f ∈ leaveConsequences) (d : DomainId) (s : State) :
    (f s).caps.get d = s.caps.get d ∨ (f s).caps.get d = { s.caps.get d with capS := none } := by
  rcases mem_leaveConsequences hf with rfl | ⟨d', rfl⟩ | rfl
  · exact .inl (congrArg (PerDomain.get · d) ((deriveColumn_switched s).same State.caps fun _ => rfl))
  · have caps := (clearCapS_offered d' s).same State.caps fun _ => rfl
    rw [caps, PerDomain.get_set]
    split
    · rename_i own
      exact .inr (by rw [own])
    · exact .inl rfl
  · exact .inl (congrArg (PerDomain.get · d) (dropSystemHint_caps s))

/-- The slot, the two postures and HINT_DROPPED as they stand. -/
def State.hinting (s : State) : Option Hint × Posture × Posture × PerPort Bool :=
  (s.hint, s.effective, s.committed, s.pendingOn .hintDropped)

/-- Only the drop reaches slot and effective posture, and it does nothing where Port S holds no hint. -/
theorem leaveConsequence_hinting {f : State → State} (hf : f ∈ leaveConsequences)
    (other : f ≠ dropSystemHint ∨ heldFromSystem s.hint = false) : (f s).hinting = s.hinting := by
  rcases mem_leaveConsequences hf with rfl | ⟨d, rfl⟩ | rfl
  · rw [State.hinting, deriveColumn_pendingOn (by decide), deriveColumn_hint, deriveColumn_effective,
      (deriveColumn_switched s).same State.committed fun _ => rfl]
    rfl
  · have same := fun {α : Type} (f : State → α) blind => (clearCapS_offered d s).same f blind
    rw [State.hinting, clearCapS_pendingOn (by decide), same State.hint fun _ => rfl,
      same State.effective fun _ => rfl, same State.committed fun _ => rfl]
    rfl
  · rw [dropSystemHint_of_not_held (other.resolve_left fun h => h rfl)]

theorem HintDropped.of_hinting {committed : Posture} (h : HintDropped committed s) (same : t.hinting = s.hinting) :
    HintDropped committed t := by
  obtain ⟨hint, effective, raised⟩ := h
  simp only [State.hinting, Prod.mk.injEq] at same
  obtain ⟨sameHint, sameEffective, _, samePending⟩ := same
  exact ⟨sameHint.trans hint, sameEffective.trans effective, raised.of_pendingOn samePending⟩

/-- An emptied slot holds no hint of Port S. -/
theorem HintDropped.free {committed : Posture} (h : HintDropped committed s) : heldFromSystem s.hint = false := by
  rw [h.1]
  rfl

theorem leaveActive_mode (s : State) : (leaveActive s).mode = .safe :=
  inAnyOrder_same State.mode (fun _ _ => rfl) leaveConsequences (fun _ hf t => leaveConsequence_mode hf t) _

theorem leaveActive_raises (s : State) : Raised .mode (leaveActive s) :=
  (raised_raise .mode { s with mode := .safe }).of_pendingOn
    (inAnyOrder_same (State.pendingOn .mode) (fun _ _ => rfl) leaveConsequences
      (fun _ hf t => leaveConsequence_pendingOn_mode hf t) _)

/-- The column of SAFE is in use after leaving ACTIVE, whenever the switch is made (R40, R154). -/
theorem leaveActive_column (s : State) : (leaveActive s).column = .safe := by
  refine inAnyOrder_brings (fun t => t.column = .safe) (fun t => t.mode = .safe) (fun _ _ h => h) (fun _ _ h => h)
    leaveConsequences deriveColumn (by simp [leaveConsequences]) (fun t mode => ?_)
    (fun f hf t mode => (leaveConsequence_mode hf t).trans mode)
    (fun f hf t mode column => leaveConsequence_column hf mode column) _ rfl
  rw [deriveColumn_column, mode]
  rfl

/-- Every CAP_S is absent after leaving ACTIVE, and every CAP_P as it was (R113). -/
theorem leaveActive_caps (d : DomainId) (s : State) :
    (leaveActive s).caps.get d = { s.caps.get d with capS := none } := by
  refine inAnyOrder_brings (fun t => t.caps.get d = { s.caps.get d with capS := none })
    (fun t => t.caps.get d = s.caps.get d ∨ t.caps.get d = { s.caps.get d with capS := none })
    (fun _ _ h => h) (fun _ _ h => h) leaveConsequences (clearCapS d) (by cases d <;> simp [leaveConsequences])
    (fun t reached => ?_) (fun f hf t reached => ?_) (fun f hf t _ cleared => ?_) _ (.inl rfl)
  · have caps := (clearCapS_offered d t).same State.caps fun _ => rfl
    rw [caps, PerDomain.get_set_self]
    rcases reached with h | h <;> rw [h]
  · rcases leaveConsequence_caps hf d t with same | clears
    · rwa [same]
    · rw [clears]
      rcases reached with h | h <;> exact .inr (by rw [h])
  · rcases leaveConsequence_caps hf d t with same | clears
    · exact same.trans cleared
    · rw [clears, cleared]

/-- A held hint of Port S is dropped after leaving ACTIVE (R37). -/
theorem leaveActive_drops (held : heldFromSystem s.hint = true) : HintDropped s.committed (leaveActive s) := by
  have drops : ∀ t : State, t.hint = s.hint ∧ t.committed = s.committed ∨ HintDropped s.committed t →
      HintDropped s.committed (dropSystemHint t) := by
    rintro t (⟨hint, committed⟩ | dropped)
    · exact committed ▸ dropSystemHint_drops (hint ▸ held)
    · rwa [dropSystemHint_of_not_held dropped.free]
  refine inAnyOrder_brings (HintDropped s.committed)
    (fun t => t.hint = s.hint ∧ t.committed = s.committed ∨ HintDropped s.committed t)
    (fun _ _ h => h) (fun _ _ h => h) leaveConsequences dropSystemHint (by simp [leaveConsequences]) drops
    (fun f hf t reached => ?_)
    (fun f hf t _ dropped => dropped.of_hinting (leaveConsequence_hinting hf (.inr dropped.free))) _ (.inl ⟨rfl, rfl⟩)
  by_cases drop : f = dropSystemHint
  · exact .inr (drop ▸ drops t reached)
  · have same := leaveConsequence_hinting hf (s := t) (.inl drop)
    refine reached.imp (fun ⟨hint, committed⟩ => ?_) fun dropped => dropped.of_hinting same
    simp only [State.hinting, Prod.mk.injEq] at same
    obtain ⟨sameHint, _, sameCommitted, _⟩ := same
    exact ⟨sameHint.trans hint, sameCommitted.trans committed⟩

/-- Any other content of the slot stays (R37). -/
theorem leaveActive_keepsHint (free : heldFromSystem s.hint = false) :
    (leaveActive s).hint = s.hint ∧ (leaveActive s).effective = s.effective := by
  refine inAnyOrder_keeps (fun t => t.hint = s.hint ∧ t.effective = s.effective) (fun _ _ h => h) leaveConsequences
    (fun f hf t kept => ?_) _ ⟨rfl, rfl⟩
  obtain ⟨hint, effective⟩ := kept
  have same := leaveConsequence_hinting hf (s := t) (.inr (hint ▸ free))
  simp only [State.hinting, Prod.mk.injEq] at same
  obtain ⟨sameHint, sameEffective, _⟩ := same
  exact ⟨sameHint.trans hint, sameEffective.trans effective⟩

/-- Leaving ACTIVE takes mode, column in use, caps and hint slot to SAFE. -/
theorem leaveActive_fallsSafe (mode : s.mode = .active) : FallsSafe s (leaveActive s) :=
  ⟨leaveActive_mode s,
    fun _ => ⟨leaveActive_column s, fun d => leaveActive_caps d s, leaveActive_drops, leaveActive_keepsHint,
      leaveActive_raises s⟩,
    fun safe => by rw [mode] at safe; cases safe⟩

/-- In SAFE nothing has to fall. -/
theorem fallsSafe_refl (mode : s.mode = .safe) : FallsSafe s s :=
  ⟨mode, fun active => (by rw [mode] at active; cases active), fun _ => ⟨rfl, rfl, rfl, rfl⟩⟩

/-- The end of an event reaches none of what falls. -/
theorem FallsSafe.ended (h : FallsSafe s t) : FallsSafe s (endEvent t) := by
  have same := fun {α : Type} (f : State → α) blind => (endEvent_ended t).same f blind
  obtain ⟨mode, fromActive, fromSafe⟩ := h
  refine ⟨(same State.mode fun _ => rfl).trans mode, fun active => ?_, fun safe => ?_⟩
  · obtain ⟨column, caps, held, free, raised⟩ := fromActive active
    refine ⟨(same State.column fun _ => rfl).trans column, fun d => ?_, fun h => ?_, fun h => ?_,
      raised.of_pendingOn (endEvent_pendingOn (by decide) t)⟩
    · rw [same State.caps fun _ => rfl, caps]
    · obtain ⟨hint, effective, dropped⟩ := held h
      exact ⟨(same State.hint fun _ => rfl).trans hint, (same State.effective fun _ => rfl).trans effective,
        dropped.of_pendingOn (endEvent_pendingOn (by decide) t)⟩
    · obtain ⟨hint, effective⟩ := free h
      exact ⟨(same State.hint fun _ => rfl).trans hint, (same State.effective fun _ => rfl).trans effective⟩
  · obtain ⟨column, caps, hint, effective⟩ := fromSafe safe
    exact ⟨(same State.column fun _ => rfl).trans column, (same State.caps fun _ => rfl).trans caps,
      (same State.hint fun _ => rfl).trans hint, (same State.effective fun _ => rfl).trans effective⟩

end Sys2Proof.Machine

/-! # ACTIVATE and DEACTIVATE (R149 to R152) -/

namespace Sys2Proof.Machine

open Sys2Proof

/-! ## The checks of ACTIVATE -/

/-- Check 3 of R150: two arbitrated domains share a priority. -/
theorem sharedPriority_iff (records : PerDomain DomainRecord) :
    sharedPriority records = true ↔
      ∃ a b : DomainId, a ≠ b ∧ (records.get a).arbitrated = true ∧ (records.get b).arbitrated = true ∧
        (records.get a).priority = (records.get b).priority := by
  simp only [sharedPriority, Bool.or_eq_true, Bool.and_eq_true, beq_iff_eq]
  constructor
  · rintro ((⟨⟨one, other⟩, same⟩ | ⟨⟨one, other⟩, same⟩) | ⟨⟨one, other⟩, same⟩)
    · exact ⟨.d0, .d1, by decide, one, other, same⟩
    · exact ⟨.d0, .d2, by decide, one, other, same⟩
    · exact ⟨.d1, .d2, by decide, one, other, same⟩
  · rintro ⟨a, b, distinct, one, other, same⟩
    cases a <;> cases b <;> simp_all [PerDomain.get]

theorem ownActivate_active {s : State} (mode : s.mode = .active) (u : Unit) :
    ownActivate u s = (s, ⟨.ok, [0]⟩) := by
  simp only [ownActivate, mode]
  rfl

/-- In SAFE the first check that fails decides (R150). -/
theorem ownActivate_safe {s : State} (mode : s.mode = .safe) (u : Unit) :
    ownActivate u s =
      if ∃ r ∈ s.faults, r.severity = .fatal then (s, ⟨.state, [1]⟩)
      else if s.report.received = false then (s, ⟨.state, [2]⟩)
      else if sharedPriority s.domains = true then (s, ⟨.invalid, [3]⟩)
      else (becomeActive s, ⟨.ok, [0]⟩) := by
  simp only [ownActivate, mode, fatalCheck_iff, Bool.not_eq_true', leBytes]
  rfl

/-! ## The mode becomes ACTIVE (R151) -/

/-- A value that neither a column switch nor the end of an event reaches is after ACTIVATE as after the change of mode
with its column. -/
theorem becomeActive_same {α : Type} (f : State → α) (ended : ∀ u : State, f u.withoutEnd = f u)
    (switched : ∀ u : State, f u.withoutSwitch = f u) (s : State) :
    f (becomeActive s) =
      f { raise .mode { s with mode := .active } with column := columnOf .active s.effective } :=
  ((endEvent_ended _).same f ended).trans ((deriveColumn_switched _).same f switched)

theorem becomeActive_raises (s : State) : Raised .mode (becomeActive s) :=
  (raised_raise .mode { s with mode := .active }).of_pendingOn
    ((endEvent_pendingOn (by decide) _).trans (deriveColumn_pendingOn (by decide) _))

/-! ## The requests -/

/-- DEACTIVATE in SAFE does nothing, and in ACTIVE leaves it (R152). -/
theorem ownDeactivate_fallsSafe (u : Unit) (s : State) :
    (s.mode = .safe → (ownDeactivate u s).1 = s) ∧ FallsSafe s (ownDeactivate u s).1 ∧
      Evented s (ownDeactivate u s).1 := by
  cases mode : s.mode with
  | safe =>
    have nothing : (ownDeactivate u s).1 = s := by simp only [ownDeactivate, mode]
    rw [nothing]
    exact ⟨fun _ => rfl, fallsSafe_refl mode, .refl s⟩
  | active =>
    have left : (ownDeactivate u s).1 = endEvent (leaveActive s) := by simp only [ownDeactivate, mode]
    rw [left]
    exact ⟨fun safe => (by cases safe), (leaveActive_fallsSafe mode).ended,
      endEvent_evented (leaveActive_fallen s).evented⟩

/-- DEACTIVATE answers OK in either mode (R152). -/
theorem ownDeactivate_reply (u : Unit) (s : State) : (ownDeactivate u s).2 = .bare .ok := by
  cases mode : s.mode <;> simp only [ownDeactivate, mode]

/-- Settles O43: ACTIVATE by its first check that fails, DEACTIVATE by the mode it is taken in. -/
theorem activateAndDeactivateSwitchTheMode : Obligations.ActivateAndDeactivateSwitchTheMode := by
  refine ⟨?activate, ?deactivate⟩
  case activate =>
    intro s running e fatal shared
    have denied := emptyRequest_denied (kind := .activate) (owner := fun _ => ownActivate) running rfl
    have taken : e = _ := emptyRequest_taken (kind := .activate) (owner := fun _ => ownActivate) running rfl
    have shared_iff : sharedPriority s.domains = true ↔ shared := sharedPriority_iff s.domains
    refine ⟨denied, fun active => ?_, fun safe found => ?_, fun safe quiet unreported => ?_,
      fun safe quiet reported same => ?_, fun safe quiet reported distinct => ?_⟩
    · rw [ownActivate_active active] at taken
      exact taken
    · rw [ownActivate_safe safe, if_pos found] at taken
      exact taken
    · rw [ownActivate_safe safe, if_neg quiet, if_pos unreported] at taken
      exact taken
    · rw [ownActivate_safe safe, if_neg quiet, if_neg (by simp [reported]), if_pos (shared_iff.mpr same)] at taken
      exact taken
    · rw [ownActivate_safe safe, if_neg quiet, if_neg (by simp [reported]), if_neg (mt shared_iff.mp distinct)] at taken
      exact ⟨becomeActive s, taken, becomeActive_same State.mode (fun _ => rfl) (fun _ => rfl) s,
        becomeActive_same State.column (fun _ => rfl) (fun _ => rfl) s, becomeActive_raises s,
        becomeActive_same State.hint (fun _ => rfl) (fun _ => rfl) s,
        becomeActive_same State.effective (fun _ => rfl) (fun _ => rfl) s,
        becomeActive_same State.caps (fun _ => rfl) (fun _ => rfl) s, becomeActive_evented s⟩
  case deactivate =>
    intro s running
    have denied := emptyRequest_denied (kind := .deactivate) (owner := fun _ => ownDeactivate) running rfl
    have taken := emptyRequest_taken (kind := .deactivate) (owner := fun _ => ownDeactivate) running rfl
    rw [ownDeactivate_reply] at taken
    exact ⟨denied, _, taken, ownDeactivate_fallsSafe () s⟩

end Sys2Proof.Machine

/-! # Notices between requests of the notice unit: kinds are raised, and nothing else changes (R158, R160, R161) -/

namespace Sys2Proof.Machine

open Sys2Proof

/-! ## The relation -/

/-- The notices of t are those of s after any number of raises. -/
def RaisesOnly (s t : State) : Prop :=
  Relation.ReflTransGen (fun n n' => ∃ k, n' = n.map (NoticePort.raise k)) s.notices t.notices

theorem RaisesOnly.refl (s : State) : RaisesOnly s s := Relation.ReflTransGen.refl

/-- A raise leaves what is pending, and the masks (R158). -/
theorem RaisesOnly.keeps {s t : State} (h : RaisesOnly s t) (p : Port) :
    (∀ k, (s.notices.get p).pending.has k = true → (t.notices.get p).pending.has k = true) ∧
      (t.notices.get p).mask = (s.notices.get p).mask := by
  unfold RaisesOnly at h
  generalize t.notices = notices at h ⊢
  induction h with
  | refl => exact ⟨fun _ pending => pending, rfl⟩
  | tail _ raised ih =>
    obtain ⟨k', rfl⟩ := raised
    obtain ⟨pending, mask⟩ := ih
    refine ⟨fun k before => ?_, ?_⟩
    · rw [PerPort.get_map, NoticePort.has_raise, pending k before]
      rfl
    · rw [PerPort.get_map]
      exact mask

/-- A derivation of a line raises nothing (R131, R132, R137). -/
theorem deriveLine_notices (fresh : Bool) (l : LineId) (s : State) : (deriveLine fresh l s).notices = s.notices := by
  unfold deriveLine compareLine
  dsimp only
  repeat' split
  all_goals rfl

section

variable {s t : State} (h : RaisesOnly s t)

include h

theorem raise_raisesOnly (k : NoticeKind) : RaisesOnly s (raise k t) :=
  Relation.ReflTransGen.tail h ⟨k, rfl⟩

theorem inAnyOrder_raisesOnly (todo : List (State → State))
    (each : ∀ f ∈ todo, ∀ t, RaisesOnly s t → RaisesOnly s (f t)) : RaisesOnly s (inAnyOrder todo t) :=
  inAnyOrder_keeps (RaisesOnly s) (fun _ _ h => h) todo each t h

/-! ## The log -/

/-- An occurrence raises FAULT at most (R144). -/
theorem occur_raisesOnly (kind : FaultKind) (n : Nat) (v : Option Int) : RaisesOnly s (occur kind n v t) := by
  unfold occur
  split
  · exact h
  · exact raise_raisesOnly (t := { t with faults := _, severity := _ }) h .fault

/-! ## Limits -/

/-- A resolution raises GRANT at most (R117). -/
theorem resolve_raisesOnly (d : DomainId) : RaisesOnly s (resolve d t) := by
  unfold resolve startSettle
  dsimp only
  split
  · exact h
  · have changed : ∀ g, RaisesOnly s (raise .grant { t with grants := g }) := fun g => raise_raisesOnly h .grant
    split
    · split <;> exact changed _
    · exact changed _

/-- An offer to the resolver is a resolution with other contributors (R110). -/
theorem offer_raisesOnly (d : DomainId) (c : PerDomain Contributors) :
    RaisesOnly s (resolve d { t with contributors := c }) :=
  resolve_raisesOnly (t := { t with contributors := c }) h d

theorem recomputeShares_raisesOnly : RaisesOnly s (recomputeShares t) := by
  have offered : ∀ before d u, RaisesOnly s u → RaisesOnly s (offerShareIfChanged before d u) := by
    intro before d u h
    unfold offerShareIfChanged
    split
    · exact h
    · exact offer_raisesOnly h d _
  exact offered _ _ _ (offered _ _ _ (offered _ _ _ h))

theorem offerCaps_raisesOnly (d : DomainId) :
    RaisesOnly s (inAnyOrder [offerCapsToResolver d, recomputeShares] t) := by
  refine inAnyOrder_raisesOnly h _ ?_
  simp only [List.mem_cons, List.not_mem_nil, or_false]
  rintro f (rfl | rfl) u h
  · exact offer_raisesOnly h d _
  · exact recomputeShares_raisesOnly h

/-- The end of an event at an account raises BURST, and what its offers raise (R82, R83). -/
theorem settleAccount_raisesOnly (d : DomainId) (next : Account) : RaisesOnly s (settleAccount d next t) := by
  have stored : ∀ accounts, RaisesOnly s { t with accounts := accounts } := fun _ => h
  have raised : ∀ c : Prop, [Decidable c] → ∀ accounts, RaisesOnly s
      (if c then { t with accounts := accounts } else raise .burst { t with accounts := accounts }) := by
    intro c _ accounts
    split
    · exact stored _
    · exact raise_raisesOnly (stored _) .burst
  unfold settleAccount
  dsimp only
  split
  · exact raised _ _
  · refine inAnyOrder_raisesOnly (raised _ _) _ ?_
    simp only [List.mem_cons, List.not_mem_nil, or_false]
    rintro f (rfl | rfl) u h
    · exact recomputeShares_raisesOnly h
    · exact offer_raisesOnly h d _

theorem recomputeThermal_raisesOnly : RaisesOnly s (recomputeThermal t) := by
  have each : ∀ d u, RaisesOnly s u → RaisesOnly s (recomputeThermalOf d u) := by
    intro d u h
    unfold recomputeThermalOf
    dsimp only
    split
    · exact h
    · have stored : ∀ thermal, RaisesOnly s { u with thermal := thermal } := fun _ => h
      refine inAnyOrder_raisesOnly (stored _) _ ?_
      simp only [List.mem_cons, List.not_mem_nil, or_false]
      rintro f (rfl | rfl) u h
      · exact settleAccount_raisesOnly h d _
      · exact offer_raisesOnly h d _
  refine inAnyOrder_raisesOnly h _ ?_
  simp only [List.mem_cons, List.not_mem_nil, or_false]
  rintro f (rfl | rfl | rfl) u h <;> exact each _ u h

/-! ## Zones -/

/-- A trip check raises TRIP, and FAULT with a first record (R61, R62). -/
theorem tripCheck_raisesOnly (z : ZoneId) : RaisesOnly s (tripCheck z t) := by
  unfold tripCheck
  dsimp only
  split
  · exact h
  · split
    · split
      · exact raise_raisesOnly (occur_raisesOnly (t := setZoneRecord z _ t) h _ _ _) .trip
      · exact h
    · split
      · exact raise_raisesOnly (t := endCondition _ _ (setZoneRecord z _ t)) h .trip
      · exact h
    · exact h
    · exact h

/-- A move of a zone raises LADDER (R64, R65). -/
theorem moveTo_raisesOnly (z : ZoneId) (n : Nat) : RaisesOnly s (moveTo z n t) :=
  raise_raisesOnly (t := setZoneRecord z _ t) h .ladder

theorem ladderUp_raisesOnly (z : ZoneId) : RaisesOnly s (ladderUp z t) := by
  unfold ladderUp
  dsimp only
  split
  · exact h
  · split
    · exact moveTo_raisesOnly h z _
    · exact h

theorem ladderUpdate_raisesOnly (z : ZoneId) : RaisesOnly s (ladderUpdate z t) := by
  unfold ladderUpdate
  dsimp only
  split
  · exact h
  · split
    · exact ladderUp_raisesOnly h z
    · split
      · exact moveTo_raisesOnly h z _
      · exact h

theorem zoneSwitch_raisesOnly (z : ZoneId) : RaisesOnly s (zoneSwitch z t) := by
  unfold zoneSwitch
  split
  · exact ladderUp_raisesOnly (tripCheck_raisesOnly h z) z
  · exact h

theorem updateZone_raisesOnly (z : ZoneId) (sum : Int) : RaisesOnly s (updateZone z sum t) := by
  have checked := fun v => tripCheck_raisesOnly (t := setZoneRecord z v t) h z
  unfold updateZone
  dsimp only
  split
  · exact recomputeThermal_raisesOnly (ladderUp_raisesOnly (checked _) z)
  · exact recomputeThermal_raisesOnly (ladderUpdate_raisesOnly (checked _) z)

/-! ## Column, posture and mode -/

theorem announceSwitch_raisesOnly : RaisesOnly s (announceSwitch t) := by
  have zones : ∀ u, RaisesOnly s u → RaisesOnly s (zonesSwitch u) := by
    intro u h
    refine recomputeThermal_raisesOnly (inAnyOrder_raisesOnly h _ ?_)
    simp only [List.mem_cons, List.not_mem_nil, or_false]
    rintro f (rfl | rfl | rfl | rfl) u h <;> exact zoneSwitch_raisesOnly h _
  refine inAnyOrder_raisesOnly h _ ?_
  simp only [List.mem_cons, List.not_mem_nil, or_false]
  rintro f (rfl | rfl | rfl | rfl | rfl) u h
  · exact zones u h
  · exact settleAccount_raisesOnly h _ _
  · exact settleAccount_raisesOnly h _ _
  · exact settleAccount_raisesOnly h _ _
  · exact recomputeShares_raisesOnly h

theorem deriveColumn_raisesOnly : RaisesOnly s (deriveColumn t) := by
  unfold deriveColumn
  dsimp only
  split
  · exact h
  · exact announceSwitch_raisesOnly (t := { t with column := _ }) h

/-- A changed effective posture raises POSTURE (R32). -/
theorem deriveEffective_raisesOnly : RaisesOnly s (deriveEffective t) := by
  unfold deriveEffective
  dsimp only
  split
  · exact h
  · exact deriveColumn_raisesOnly (raise_raisesOnly (t := { t with effective := _ }) h .posture)

/-- A drop of the hint raises HINT_DROPPED (section 2.6). -/
theorem dropHint_raisesOnly : RaisesOnly s (dropHint t) := raise_raisesOnly (t := { t with hint := none }) h .hintDropped

theorem leaveConsequence_raisesOnly {f : State → State} (hf : f ∈ leaveConsequences) : RaisesOnly s (f t) := by
  rcases mem_leaveConsequences hf with rfl | ⟨d, rfl⟩ | rfl
  · exact deriveColumn_raisesOnly h
  · have stored : ∀ caps, RaisesOnly s { t with caps := caps } := fun _ => h
    unfold clearCapS
    dsimp only
    split
    · exact h
    · exact offerCaps_raisesOnly (stored _) d
  · unfold dropSystemHint
    split
    · exact deriveEffective_raisesOnly (dropHint_raisesOnly h)
    · exact h

/-- Leaving ACTIVE raises MODE, and what its consequences raise (R149, R154). -/
theorem leaveActive_raisesOnly : RaisesOnly s (leaveActive t) :=
  inAnyOrder_raisesOnly (raise_raisesOnly (t := { t with mode := .safe }) h .mode) leaveConsequences
    fun _ hf _ h => leaveConsequence_raisesOnly h hf

theorem occurFatal_raisesOnly (kind : FaultKind) (n : Nat) (v : Option Int) :
    RaisesOnly s (occurFatal kind n v t) := by
  have logged := occur_raisesOnly h kind n v
  unfold occurFatal
  dsimp only
  split
  · exact logged
  · exact leaveActive_raisesOnly logged

theorem followSources_raisesOnly (z : ZoneId) : RaisesOnly s (followSources z t) := by
  unfold followSources
  dsimp only
  split
  · exact h
  · split
    · exact occurFatal_raisesOnly (t := setZoneRecord z _ t) h _ _ _
    · exact h

/-! ## The end of an event -/

/-- The end of an event raises THROTTLE at most (R133). -/
theorem endEventWith_raisesOnly (fresh : Option LineId) : RaisesOnly s (endEventWith fresh t) := by
  have derived : ∀ b0 b1 b2 b3,
      RaisesOnly s (deriveLine b3 .thr3 (deriveLine b2 .thr2 (deriveLine b1 .thr1 (deriveLine b0 .thr0 t)))) := by
    intro b0 b1 b2 b3
    unfold RaisesOnly
    rw [deriveLine_notices, deriveLine_notices, deriveLine_notices, deriveLine_notices]
    exact h
  unfold endEventWith
  dsimp only
  split
  · exact derived _ _ _ _
  · exact raise_raisesOnly (derived _ _ _ _) .throttle

theorem endEvent_raisesOnly : RaisesOnly s (endEvent t) := endEventWith_raisesOnly h none

end

end Sys2Proof.Machine

/-! # What the commands do to the notices (R158, R160, R161) -/

namespace Sys2Proof.Machine

open Sys2Proof

section

variable {s t : State} (h : RaisesOnly s t)

include h

/-! ## Sensing (chapter 1) -/

theorem requestConversion_raisesOnly (c : TempId) : RaisesOnly s (requestConversion c t) := by
  have joined : RaisesOnly s { t with queue := t.queue ++ [c] } := h
  unfold requestConversion
  split
  · exact occur_raisesOnly h _ _ _
  · unfold RaisesOnly
    rwa [startConversion_same State.notices fun _ _ _ => rfl]

/-- A channel that enters or leaves FAILED reports it, and the zones follow (R10, R63). -/
theorem changeTemp_raisesOnly (c : TempId) (v next : TempChannel) : RaisesOnly s (changeTemp c v next t) := by
  have stored : RaisesOnly s (setTempRecord c next t) := h
  have followed : ∀ u, RaisesOnly s u → RaisesOnly s (sourcesChanged u) := fun u h =>
    endEvent_raisesOnly (inAnyOrder_raisesOnly h _ fun f hf u h => by
      obtain ⟨z, rfl⟩ := mem_followAll hf
      exact followSources_raisesOnly h z)
  unfold changeTemp
  dsimp only
  split
  · exact followed _ (occur_raisesOnly stored _ _ _)
  · split
    · exact followed _ stored
    · exact stored

theorem handleOutcome_raisesOnly (j : Conversion) (result : RawResult) : RaisesOnly s (handleOutcome j result t) := by
  unfold handleOutcome
  dsimp only
  split <;> exact changeTemp_raisesOnly h _ _ _

theorem ownSetChannel_raisesOnly (r : ChannelRequest) : RaisesOnly s (ownSetChannel r t).1 := by
  have voided : ∀ c queue, RaisesOnly s (voidConversion c { t with queue := queue }) := fun _ _ => h
  unfold ownSetChannel configureChannel
  split
  · exact h
  · dsimp only
    split
    · exact h
    · split
      · exact h
      · dsimp only
        split
        · exact h
        · split
          · exact h
          · exact h
          · exact changeTemp_raisesOnly (voided _ _) _ _ _
          · exact changeTemp_raisesOnly (voided _ t.queue) _ _ _

/-! ## Samples (R15 to R19) -/

/-- A delivery at a domain's compliance raises FAULT at most (R121, R126). -/
theorem complianceDelivery_raisesOnly (d : DomainId) (q : Quality) (power : Nat) :
    RaisesOnly s (complianceDelivery d q power t) := by
  have stored : ∀ c, RaisesOnly s (setCompliance d c t) := fun _ => h
  have judged : RaisesOnly s (judgeDelivery d power t) := by
    unfold judgeDelivery
    dsimp only
    split
    · split
      · exact h
      · split
        · split
          · exact occur_raisesOnly (stored _) _ _ _
          · exact h
        · exact h
    · split
      · split <;> exact h
      · exact h
  cases q with
  | valid | held => exact judged
  | substitute =>
    unfold complianceDelivery substituteCompliance
    dsimp only
    split <;> exact h

theorem deliverToDomain_raisesOnly (d : DomainId) (v : PowerChannel) : RaisesOnly s (deliverToDomain d v t) := by
  unfold deliverToDomain
  split
  · exact h
  · exact endEvent_raisesOnly (settleAccount_raisesOnly (complianceDelivery_raisesOnly h _ _ _) _ _)

theorem restChange_raisesOnly (before : Nat) : RaisesOnly s (restChange before t) := by
  unfold restChange
  split
  · exact h
  · exact endEvent_raisesOnly (recomputeShares_raisesOnly h)

theorem deliverToWatch_raisesOnly (old : ChannelState) (v : PowerChannel) : RaisesOnly s (deliverToWatch old v t) := by
  have delivered : ∀ power, RaisesOnly s (watchDelivery power t) := by
    intro power
    unfold watchDelivery
    dsimp only
    split
    · exact h
    · exact h
    · split <;> exact h
  unfold deliverToWatch watchFailure
  split
  · exact endEvent_raisesOnly (delivered _)
  · exact endEvent_raisesOnly (delivered _)
  · split
    · exact h
    · split <;> exact h
  · exact h
  · exact h

theorem deliver_raisesOnly (n : PowerId) (old v : PowerChannel) : RaisesOnly s (deliver n old v t) := by
  cases n with
  | pm0 | pm1 | pm2 => exact deliverToDomain_raisesOnly h _ v
  | pm3 => exact restChange_raisesOnly h _
  | pm4 => exact deliverToWatch_raisesOnly h old.state v

theorem reportPower_raisesOnly (n : PowerId) (old new : ChannelState) : RaisesOnly s (reportPower n old new t) := by
  unfold reportPower
  split
  · exact occur_raisesOnly h _ _ _
  · split <;> exact h

theorem ownSetPowerChannel_raisesOnly (r : PowerChannelRequest) : RaisesOnly s (ownSetPowerChannel r t).1 := by
  have stored : ∀ n v fail, RaisesOnly s { setPowerRecord n v t with restFail := fail } := fun _ _ _ => h
  unfold ownSetPowerChannel configurePower
  split
  · exact h
  · split
    · exact h
    · dsimp only
      split
      · exact restChange_raisesOnly (stored _ _ _) _
      all_goals exact h

/-! ## Posture (R23 to R38) -/

/-- A commit raises HINT_DROPPED at most (R38). -/
theorem commit_raisesOnly (candidate : Place) : RaisesOnly s (commit candidate t) := by
  have stored : RaisesOnly s { t with committed := candidate.posture, dwell := none } := h
  unfold commit
  dsimp only
  split
  · split
    · exact dropHint_raisesOnly stored
    · exact stored
  · exact stored

theorem reclassify_raisesOnly : RaisesOnly s (reclassify t) := by
  have stored : ∀ candidate, RaisesOnly s { t with candidate := candidate } := fun _ => h
  unfold reclassify setDwell
  dsimp only
  split
  · exact h
  · split
    · exact h
    · split
      · exact h
      · exact commit_raisesOnly (stored _) _
      · exact h

/-- An edge that drops a held hint raises HINT_DROPPED (R36). -/
theorem classifierEvent_raisesOnly (l : InputId) (edge : Bool) : RaisesOnly s (classifierEvent l edge t) := by
  unfold classifierEvent
  refine deriveEffective_raisesOnly (reclassify_raisesOnly ?_)
  split
  · exact dropHint_raisesOnly h
  · exact h

/-- A debounced edge raises its IN_ kind where the trigger admits it (R157). -/
theorem takeLevel_raisesOnly (l : InputId) (asserted : Bool) : RaisesOnly s (takeLevel l asserted t) := by
  have noticed : ∀ (c : Bool) (k : NoticeKind) (inputs : PerInput InputLine),
      RaisesOnly s (if c then raise k { t with inputs := inputs } else { t with inputs := inputs }) := by
    intro c k inputs
    have stored : RaisesOnly s { t with inputs := inputs } := h
    split
    · exact raise_raisesOnly stored k
    · exact stored
  cases l with
  | acin =>
    refine endEvent_raisesOnly (inAnyOrder_raisesOnly (noticed _ _ _) _ ?_)
    simp only [List.mem_cons, List.not_mem_nil, or_false]
    rintro f (rfl | rfl) u h
    · exact classifierEvent_raisesOnly h _ _
    · exact recomputeShares_raisesOnly h
  | lid | motion | contact => exact endEvent_raisesOnly (classifierEvent_raisesOnly (noticed _ _ _) _ _)

theorem startDebounce_raisesOnly (l : InputId) (asserted : Bool) : RaisesOnly s (startDebounce l asserted t) := by
  unfold startDebounce
  dsimp only
  split
  · exact takeLevel_raisesOnly h l asserted
  · exact h

theorem levelChange_raisesOnly (l : InputId) : RaisesOnly s (levelChange l t) := by
  unfold levelChange
  dsimp only
  split
  · exact h
  · exact startDebounce_raisesOnly h _ _

theorem ownSetInput_raisesOnly (r : InputRequest) : RaisesOnly s (ownSetInput r t).1 := by
  have stored : ∀ inputs, RaisesOnly s { t with inputs := inputs } := fun _ => h
  unfold ownSetInput configureInput
  split
  · exact h
  · dsimp only
    split
    · exact levelChange_raisesOnly (stored _) _
    · split
      · split
        · exact startDebounce_raisesOnly (stored _) _ _
        · exact h
      · exact h

theorem commitCandidate_raisesOnly : RaisesOnly s (commitCandidate t) := by
  unfold commitCandidate
  split
  · exact h
  · exact endEvent_raisesOnly (deriveEffective_raisesOnly (commit_raisesOnly h _))

theorem placeHint_raisesOnly (hint : Option Hint) : RaisesOnly s (placeHint hint t) := by
  have stored : RaisesOnly s { t with hint := hint } := h
  unfold placeHint
  split
  · exact h
  · exact endEvent_raisesOnly (deriveEffective_raisesOnly stored)

/-- A hint is refused, or placed in the slot (R32 to R35). -/
theorem ownPostureHint_raisesOnly (port : Port) (code : HintCode) : RaisesOnly s (ownPostureHint port code t).1 := by
  cases code with
  | unsettled => exact h
  | noHint =>
    rw [ownPostureHint_noHint]
    split
    · exact h
    · exact placeHint_raisesOnly h _
  | place place =>
    rw [ownPostureHint_place]
    split
    · exact h
    · exact placeHint_raisesOnly h _

/-! ## Profile table, domains and supply -/

theorem ownSetProfile_raisesOnly (r : ProfileRequest) : RaisesOnly s (ownSetProfile r t).1 := by
  have stored : ∀ profile, RaisesOnly s { t with profile := profile } := fun _ => h
  have reselected : ∀ d u, RaisesOnly s u → RaisesOnly s (reselectDomain d u) := by
    intro d u h
    refine inAnyOrder_raisesOnly h _ ?_
    simp only [List.mem_cons, List.not_mem_nil, or_false]
    rintro f (rfl | rfl) u h
    · exact settleAccount_raisesOnly h _ _
    · exact recomputeShares_raisesOnly h
  unfold ownSetProfile storeEntry
  split
  · split
    · dsimp only
      split
      · exact endEvent_raisesOnly (reselected _ _ (stored _))
      · exact h
    · exact h
  · exact h

theorem ownSetSkinLimits_raisesOnly (r : SkinRequest) : RaisesOnly s (ownSetSkinLimits r t).1 := by
  have stored : ∀ skin, RaisesOnly s { t with skin := skin } := fun _ => h
  unfold ownSetSkinLimits storeLimits reselectZone
  split
  · exact h
  · split
    · dsimp only
      split
      · exact h
      · exact endEvent_raisesOnly (recomputeThermal_raisesOnly (zoneSwitch_raisesOnly (stored _) _))
    · exact h

/-- Each effect of a changed domain record is taken or not (R114). -/
theorem ownSetDomain_raisesOnly (r : DomainRequest) : RaisesOnly s (ownSetDomain r t).1 := by
  have stored : ∀ domains, RaisesOnly s { t with domains := domains } := fun _ => h
  have optional : ∀ c f u, RaisesOnly s u → RaisesOnly s (f u) → RaisesOnly s (onlyIf c f u) := by
    intro c f u unchanged changed
    unfold onlyIf
    split
    · exact changed
    · exact unchanged
  unfold ownSetDomain configureDomain
  split
  · exact h
  · split
    · dsimp only
      split
      · exact h
      · refine endEvent_raisesOnly (inAnyOrder_raisesOnly (stored _) _ ?_)
        simp only [List.mem_cons, List.not_mem_nil, or_false]
        rintro f (rfl | rfl | rfl | rfl) u h
        · exact optional _ _ u h (settleAccount_raisesOnly h _ _)
        · exact optional _ _ u h (recomputeShares_raisesOnly h)
        · exact optional _ _ u h (resolve_raisesOnly h _)
        · exact optional _ _ u h h
    · exact h

theorem ownSetCap_raisesOnly (port : Port) (r : CapRequest) : RaisesOnly s (ownSetCap port r t).1 := by
  have stored : ∀ caps, RaisesOnly s { t with caps := caps } := fun _ => h
  unfold ownSetCap storeCap
  split
  · exact h
  · dsimp only
    split
    · exact h
    · exact endEvent_raisesOnly (offerCaps_raisesOnly (stored _) _)

theorem ownSetSupplyConfig_raisesOnly (c : SupplyConfig) : RaisesOnly s (ownSetSupplyConfig c t).1 := by
  have stored : ∀ c, RaisesOnly s { t with supplyCfg := c } := fun _ => h
  unfold ownSetSupplyConfig configureSupply
  split
  · dsimp only
    split
    · exact h
    · exact endEvent_raisesOnly (recomputeShares_raisesOnly (stored _))
  · exact h

theorem ownSupplyReport_raisesOnly (r : ReportRequest) : RaisesOnly s (ownSupplyReport r t).1 := by
  have stored : ∀ report, RaisesOnly s { t with report := report } := fun _ => h
  exact endEvent_raisesOnly (recomputeShares_raisesOnly (stored _))

/-- A trip of the watch raises FAULT, and what leaving ACTIVE raises (R106). -/
theorem supplyTrips_raisesOnly : RaisesOnly s (supplyTrips t) := by
  have stored : ∀ watch, RaisesOnly s { t with watch := watch } := fun _ => h
  exact endEvent_raisesOnly (occurFatal_raisesOnly (stored _) _ _ _)

/-! ## Mode -/

/-- ACTIVATE fails one of its checks, or raises MODE (R150, R151). -/
theorem ownActivate_raisesOnly (u : Unit) : RaisesOnly s (ownActivate u t).1 := by
  have active : RaisesOnly s { t with mode := .active } := h
  unfold ownActivate
  split
  · exact h
  · split
    · exact h
    · split
      · exact h
      · split
        · exact h
        · exact endEvent_raisesOnly (deriveColumn_raisesOnly (raise_raisesOnly active .mode))

theorem ownDeactivate_raisesOnly (u : Unit) : RaisesOnly s (ownDeactivate u t).1 := by
  unfold ownDeactivate
  split
  · exact endEvent_raisesOnly (leaveActive_raisesOnly h)
  · exact h

/-! ## Zones -/

theorem ownSetLadder_raisesOnly (r : LadderRequest) : RaisesOnly s (ownSetLadder r t).1 := by
  have stored : ∀ z v, RaisesOnly s (setZoneRecord z v t) := fun _ _ => h
  unfold ownSetLadder configureLadder
  split
  · exact h
  · split
    · dsimp only
      split
      · exact h
      · split
        · exact endEvent_raisesOnly (recomputeThermal_raisesOnly (moveTo_raisesOnly (stored _ _) _ _))
        · exact endEvent_raisesOnly (recomputeThermal_raisesOnly (stored _ _))
    · exact h

/-- A zone that SET_ZONE restarts or disables raises TRIP and LADDER at most (R71, R72). -/
theorem leaveZone_raisesOnly (z : ZoneId) (v : Zone) : RaisesOnly s (leaveZone z v t) := by
  have ended : RaisesOnly s (raise .trip (endCondition .zoneTrip z.number t)) :=
    raise_raisesOnly (t := endCondition _ _ t) h .trip
  unfold leaveZone
  dsimp only
  cases v.state with
  | tripped =>
    dsimp only
    split
    · exact raise_raisesOnly ended .ladder
    · exact ended
  | off | starting | active =>
    dsimp only
    split
    · exact raise_raisesOnly h .ladder
    · exact h

theorem ownSetZone_raisesOnly (r : ZoneRequest) : RaisesOnly s (ownSetZone r t).1 := by
  have stored : ∀ z v, RaisesOnly s (setZoneRecord z v t) := fun _ _ => h
  have restarted : ∀ z v w,
      RaisesOnly s (endEvent (recomputeThermal (followSources z (leaveZone z v (setZoneRecord z w t))))) := fun z v w =>
    endEvent_raisesOnly (recomputeThermal_raisesOnly (followSources_raisesOnly
      (leaveZone_raisesOnly (stored _ _) z v) z))
  unfold ownSetZone configureZone
  split
  · split
    · dsimp only
      split
      · exact h
      · split
        · exact h
        · exact restarted _ _ _
        · exact restarted _ _ _
    · exact h
  · exact h

/-! ## Lines -/

theorem lineSticks_raisesOnly (l : LineId) : RaisesOnly s (lineSticks l t) := by
  have stored : ∀ v, RaisesOnly s (setLineRecord l v t) := fun _ => h
  exact endEvent_raisesOnly (occurFatal_raisesOnly (stored _) _ _ _)

theorem ownForceLine_raisesOnly (r : ForceRequest) : RaisesOnly s (ownForceLine r t).1 := by
  have stored : ∀ l v, RaisesOnly s (setLineRecord l v t) := fun _ _ => h
  unfold ownForceLine
  split
  · exact h
  · dsimp only
    split
    · exact h
    · exact endEvent_raisesOnly (stored _ _)

theorem ownSetRouting_raisesOnly (r : RoutingRequest) : RaisesOnly s (ownSetRouting r t).1 := by
  have stored : ∀ l v, RaisesOnly s (setLineRecord l v t) := fun _ _ => h
  unfold ownSetRouting configureLine
  split
  · exact h
  · split
    · dsimp only
      split
      · exact h
      · exact endEventWith_raisesOnly (stored _ _) _
    · exact h

end

end Sys2Proof.Machine

/-! # Notices stay until they are cleared, and masks until they are set (R158, R160, R161) -/

namespace Sys2Proof.Machine

open Sys2Proof

/-! ## The commands of the other units -/

/-- The commands that do more to the notices than to raise kinds: RESET and the notice unit's writes. -/
def reachesNotices : Instr → Bool
  | .reset _ _ _ => true
  | .clearNotices _ _ => true
  | .setNoticeMask _ _ => true
  | _ => false

/-- A request only raises where its owner does. -/
theorem request_raisesOnly {α : Type} {kind : Kind} {call : Call} {shape : List Byte → Option α}
    {owner : Port → α → State → State × Reply} {body : List Byte} {s t : State}
    (h : atPort call (fun port => takeRequest kind port shape (owner port) body) s = .next t)
    (own : ∀ r, RaisesOnly s (owner call.port r s).1) : RaisesOnly s t :=
  atPort_keeps (RaisesOnly s) call _ s t (.refl s)
    (takeRequest_keeps (RaisesOnly s) (fun _ _ h => h) kind call.port shape (owner call.port) body s (.refl s)
      fun _ r _ _ => own r) h

theorem transaction_raisesOnly (i : Instr) (s t : State) (hc : (callOf i).isSome = true)
    (hi : reachesNotices i = false) (h : exec i s = .next t) : RaisesOnly s t := by
  have same : RaisesOnly s s := .refl s
  cases i <;> simp only [exec] at h
  case badFrame =>
    exact atPort_keeps _ _ _ s t same
      (takeWrite_keeps (RaisesOnly s) (fun _ _ h => h) _ _ _ s same fun _ _ => same) h
  case unknown =>
    refine atPort_keeps _ _ _ s t same
      (takeWrite_keeps (RaisesOnly s) (fun _ _ h => h) _ _ _ s same fun received _ => ?_) h
    split <;> exact same
  case replyRead => exact atPort_keeps (RaisesOnly s) _ _ s t same same h
  case identify | readStatus | readGrants | readFaults | readNotices | clearFaults | setPostureTiming =>
    exact request_raisesOnly h fun _ => same
  case readDomain =>
    refine request_raisesOnly h fun r => ?_
    unfold ownReadDomain
    split
    · exact same
    · split <;> exact same
  case readZone =>
    refine request_raisesOnly h fun r => ?_
    unfold ownReadZone
    split <;> exact same
  case readChannel =>
    refine request_raisesOnly h fun r => ?_
    unfold ownReadChannel
    split <;> split <;> exact same
  case setChannel => exact request_raisesOnly h (ownSetChannel_raisesOnly same)
  case setPowerChannel => exact request_raisesOnly h (ownSetPowerChannel_raisesOnly same)
  case setInput => exact request_raisesOnly h (ownSetInput_raisesOnly same)
  case setZone => exact request_raisesOnly h (ownSetZone_raisesOnly same)
  case setLadder => exact request_raisesOnly h (ownSetLadder_raisesOnly same)
  case setProfile => exact request_raisesOnly h (ownSetProfile_raisesOnly same)
  case setSkinLimits => exact request_raisesOnly h (ownSetSkinLimits_raisesOnly same)
  case setDomain => exact request_raisesOnly h (ownSetDomain_raisesOnly same)
  case setRouting => exact request_raisesOnly h (ownSetRouting_raisesOnly same)
  case setSupplyConfig => exact request_raisesOnly h (ownSetSupplyConfig_raisesOnly same)
  case supplyReport => exact request_raisesOnly h (ownSupplyReport_raisesOnly same)
  case setCap call body => exact request_raisesOnly h (ownSetCap_raisesOnly same call.port)
  case postureHint call body => exact request_raisesOnly h (ownPostureHint_raisesOnly same call.port)
  case forceLine => exact request_raisesOnly h (ownForceLine_raisesOnly same)
  case activate => exact request_raisesOnly h (ownActivate_raisesOnly same)
  case deactivate => exact request_raisesOnly h (ownDeactivate_raisesOnly same)
  all_goals simp [callOf, requestParts, reachesNotices] at hc hi

/-- An event only raises where its effect outside a reset does. -/
theorem outsideReset_raisesOnly {f : State → State} {s t : State} (h : outsideReset f s = .next t)
    (own : RaisesOnly s (f s)) : RaisesOnly s t :=
  outsideReset_keeps (RaisesOnly s) f s t (.refl s) own h

theorem event_raisesOnly (i : Instr) (s t : State) (hc : callOf i = none) (hi : reachesNotices i = false)
    (h : exec i s = .next t) : RaisesOnly s t := by
  have same : RaisesOnly s s := .refl s
  have due : ∀ w, RaisesOnly s (await w s) := by
    intro w
    unfold await
    split <;> exact same
  cases i <;> simp only [exec] at h
  case intervalTimerExpiry c =>
    refine outsideReset_raisesOnly h ?_
    split
    · exact same
    · rename_i w _
      exact requestConversion_raisesOnly (t := setTempRecord c _ (await w s)) (due w) c
  case conversionEnd result =>
    refine outsideReset_raisesOnly h ?_
    split
    · exact same
    · rename_i j _
      have idle : RaisesOnly s { await j.timer s with converter := none } := due j.timer
      unfold RaisesOnly
      rw [startConversion_same State.notices fun _ _ _ => rfl]
      split
      · exact idle
      · exact handleOutcome_raisesOnly idle j result
  case sampleArrival n sample =>
    refine outsideReset_raisesOnly h ?_
    refine deliver_raisesOnly (reportPower_raisesOnly ?_ n _ _) n _ _
    exact due (s.powers.get n).timer
  case tripTimerExpiry =>
    refine outsideReset_raisesOnly h ?_
    split
    · exact supplyTrips_raisesOnly (due _)
    · exact same
    · exact same
  case inputLevelChange l high =>
    have stored : ∀ inputs, RaisesOnly s { s with inputs := inputs } := fun _ => same
    refine outsideReset_raisesOnly h ?_
    dsimp only
    split
    · exact same
    · exact levelChange_raisesOnly (stored _) l
  case debounceExpiry l =>
    refine outsideReset_raisesOnly h ?_
    split
    · exact same
    · exact takeLevel_raisesOnly (due _) l _
  case dwellExpiry =>
    refine outsideReset_raisesOnly h ?_
    split
    · exact same
    · exact commitCandidate_raisesOnly (due _)
  case zoneUpdate z =>
    refine outsideReset_raisesOnly h ?_
    split
    · exact same
    · rename_i w _
      have restarted : ∀ v, RaisesOnly s (setZoneRecord z v (await w s)) := fun _ => due w
      dsimp only
      split
      · exact restarted _
      · exact endEvent_raisesOnly (updateZone_raisesOnly (restarted _) z _)
  case settleTimerExpiry d =>
    refine outsideReset_raisesOnly h ?_
    split
    · exact same
    · rename_i w _
      exact due w
  case sensedLevelChange l high =>
    refine outsideReset_raisesOnly h ?_
    unfold compareLine
    dsimp only
    repeat' split
    all_goals exact same
  case readbackWindowExpiry l =>
    refine outsideReset_raisesOnly h ?_
    split
    · exact same
    · exact lineSticks_raisesOnly (due _) l
  all_goals simp [callOf, requestParts, reachesNotices] at hc hi

/-- Every command but RESET and the notice unit's writes does nothing to the notices but to raise kinds. -/
theorem exec_raisesOnly (i : Instr) (s t : State) (hi : reachesNotices i = false) (h : exec i s = .next t) :
    RaisesOnly s t := by
  cases hc : callOf i with
  | none => exact event_raisesOnly i s t hc hi h
  | some call => exact transaction_raisesOnly i s t (by simp [hc]) hi h

/-! ## The notice unit's writes -/

/-- A frame with a body above 60 bytes fails the frame test (R168). -/
theorem frameWellFormed_of_long (kind : Byte) (body : List Byte) (long : 60 < body.length) :
    frameWellFormed (frame kind body) = false := by
  have tooLong : ¬(frame kind body).length ≤ Config.frameBytesMax := by
    rw [length_frame, Config.frameBytesMax]
    omega
  unfold frameWellFormed
  split
  · simp only [tooLong, decide_false, Bool.and_false, Bool.false_and]
  · rfl

/-- A request leaves the notices, or has the shape of its kind and does to them what its owner does. -/
theorem takeRequest_notices {α : Type} (kind : Kind) (port : Port) (shape : List Byte → Option α)
    (owner : α → State → State × Reply) (body : List Byte) (s : State) :
    (takeRequest kind port shape owner body s).notices = s.notices ∨
      ∃ r, shape body = some r ∧ (takeRequest kind port shape owner body s).notices = (owner r s).1.notices := by
  by_cases short : body.length ≤ 60
  · rw [takeRequest_frame _ _ _ _ _ _ short]
    unfold checkRequest
    split
    · exact .inl rfl
    · split
      · exact .inl rfl
      · split
        · exact .inl rfl
        · rename_i r shaped
          exact .inr ⟨r, shaped, rfl⟩
  · rw [takeRequest, takeWrite_refused _ _ _ _ (frameWellFormed_of_long _ _ (by omega))]
    exact .inl rfl

/-- What a request of the notice unit does to the notices, where it reaches its port. -/
theorem noticeRequest_notices {kind : Kind} {call : Call} {owner : Port → NoticeSet → State → State × Reply}
    {body : List Byte} {s t : State}
    (h : atPort call (fun port => takeRequest kind port shapeNotices (owner port) body) s = .next t) :
    t.notices = s.notices ∨ t.notices = (owner call.port (BitVec.ofNat 13 (u16 body 0)) s).1.notices := by
  refine atPort_keeps (fun t => t.notices = s.notices ∨ t.notices = _) call _ s t (.inl rfl) ?_ h
  refine (takeRequest_notices kind call.port shapeNotices (owner call.port) body s).imp_right ?_
  rintro ⟨r, shaped, taken⟩
  have named : r = BitVec.ofNat 13 (u16 body 0) := by
    unfold shapeNotices noticeSetOf at shaped
    split at shaped
    · split at shaped <;> cases shaped
      rfl
    · cases shaped
  exact named ▸ taken

theorem NoticeSet.has_ofNat (n : Nat) (k : NoticeKind) :
    NoticeSet.has (BitVec.ofNat 13 n) k = n.testBit k.position := by
  rw [NoticeSet.has, BitVec.getLsbD_ofNat, decide_eq_true k.position_lt, Bool.true_and]

/-- Removing a set of kinds leaves the others. -/
theorem NoticeSet.has_remove (set named : NoticeSet) (k : NoticeKind) :
    NoticeSet.has (set &&& ~~~named) k = (set.has k && !named.has k) := by
  simp only [NoticeSet.has, BitVec.getLsbD_and, BitVec.getLsbD_not, k.position_lt, decide_true, Bool.true_and]

/-- CLEAR_NOTICES leaves the kinds that it does not name, the other port's pending set, and the masks (R160). -/
theorem clearNotices_leaves {call : Call} {body : List Byte} {s t : State}
    (h : exec (.clearNotices call body) s = .next t) (p : Port) :
    (∀ k, (call.port = p → (u16 body 0).testBit k.position = false) →
        (s.notices.get p).pending.has k = true → (t.notices.get p).pending.has k = true) ∧
      (t.notices.get p).mask = (s.notices.get p).mask := by
  simp only [exec] at h
  rcases noticeRequest_notices (owner := ownClearNotices) h with same | cleared
  · rw [same]
    exact ⟨fun _ _ pending => pending, rfl⟩
  · rw [cleared]
    simp only [ownClearNotices, setNotices, PerPort.get_set]
    split
    · rename_i own
      subst own
      refine ⟨fun k unnamed pending => ?_, rfl⟩
      rw [NoticeSet.has_remove, NoticeSet.has_ofNat, unnamed rfl, pending]
      rfl
    · exact ⟨fun _ _ pending => pending, rfl⟩

/-- SET_NOTICE_MASK leaves the pending sets and the other port's mask (R161). -/
theorem setNoticeMask_leaves {call : Call} {body : List Byte} {s t : State}
    (h : exec (.setNoticeMask call body) s = .next t) (p : Port) :
    (t.notices.get p).pending = (s.notices.get p).pending ∧
      (call.port ≠ p → (t.notices.get p).mask = (s.notices.get p).mask) := by
  simp only [exec] at h
  rcases noticeRequest_notices (owner := ownSetNoticeMask) h with same | replaced
  · rw [same]
    exact ⟨rfl, fun _ => rfl⟩
  · rw [replaced]
    simp only [ownSetNoticeMask, setNotices, PerPort.get_set]
    split
    · rename_i own
      exact ⟨by rw [own], fun other => absurd own.symm other⟩
    · exact ⟨rfl, fun _ => rfl⟩

/-- Either edge of a reset empties the pending sets and masks every kind (R158). -/
theorem reset_notices {edge : ResetEdge} {pins : PerInput Bool} {lines : PerLine Bool} {s t : State}
    (h : exec (.reset edge pins lines) s = .next t) : t.notices = State.reset.notices := by
  cases edge <;> cases h <;> rfl

/-- Settles O48: a raise adds one kind; of the commands only RESET and the port's own CLEAR_NOTICES and SET_NOTICE_MASK
do more than raise. -/
theorem noticesStayUntilCleared : Obligations.NoticesStayUntilCleared := by
  refine ⟨fun k k' p s => ?raised, fun c p s t h => ?command⟩
  case raised =>
    rw [raise_notices, PerPort.get_map, NoticePort.has_raise]
    simp only [eq_comm]
  case command =>
    cases hc : reachesNotices c with
    | false =>
      have unreset : ¬IsReset c := by
        rintro ⟨_, _, _, rfl⟩
        cases hc
      obtain ⟨pending, mask⟩ := (exec_raisesOnly c s t hc h).keeps p
      exact ⟨fun reset => absurd reset unreset, fun k _ _ => pending k, fun _ _ => mask⟩
    | true =>
      cases c with
      | reset edge pins lines =>
        have isReset : IsReset (.reset edge pins lines) := ⟨edge, pins, lines, rfl⟩
        refine ⟨fun _ => ?_, fun _ unreset => absurd isReset unreset, fun unreset => absurd isReset unreset⟩
        rw [reset_notices h]
        cases p <;> exact ⟨rfl, rfl⟩
      | clearNotices call body =>
        obtain ⟨pending, mask⟩ := clearNotices_leaves h p
        exact ⟨fun ⟨_, _, _, e⟩ => (by cases e), fun k _ unnamed => pending k (unnamed call body rfl), fun _ _ => mask⟩
      | setNoticeMask call body =>
        obtain ⟨pending, mask⟩ := setNoticeMask_leaves h p
        exact ⟨fun ⟨_, _, _, e⟩ => (by cases e), fun k _ _ before => pending ▸ before,
          fun _ other => mask (other call body rfl)⟩
      | _ => cases hc

end Sys2Proof.Machine

/-! # Requests that are taken on either port and in either mode (R159 to R162) -/

namespace Sys2Proof.Machine

open Sys2Proof

/-! ## Replies of an owner -/

/-- A kind that is listed for Port S, with no mode named, passes checks 3 and 4 of R169 on either port. -/
theorem admitted_everywhere {kind : Kind} {port : Port} {s : State} (listed : portListed kind .system = true)
    (anyMode : modeNamed kind port = none) : Admitted kind port s := by
  refine ⟨?_, by rw [modeAllows, anyMode]⟩
  cases port
  · rfl
  · exact listed

/-- A request of the shape of its kind on a port's own address is its owner's. -/
theorem request_taken {α : Type} {kind : Kind} {port : Port} {shape : List Byte → Option α}
    {owner : Port → α → State → State × Reply} {body : List Byte} {s : State} {r : α} (running : s.inReset = false)
    (admitted : Admitted kind port s) (short : body.length ≤ 60) (shaped : shape body = some r) :
    atPort (s.call port) (fun port => takeRequest kind port shape (owner port) body) s =
      .next (answer port kind (owner port r s).2 (owner port r s).1) := by
  rw [atPort_call _ _ _ running, takeRequest_frame _ _ _ _ _ _ short, checkRequest_taken _ _ _ _ _ _ r admitted shaped]

/-- A request without the shape of its kind on a port's own address is answered INVALID (check 5 of R169). -/
theorem request_invalid {α : Type} {kind : Kind} {port : Port} {shape : List Byte → Option α}
    {owner : Port → α → State → State × Reply} {body : List Byte} {s : State} (running : s.inReset = false)
    (admitted : Admitted kind port s) (short : body.length ≤ 60) (unshaped : shape body = none) :
    atPort (s.call port) (fun port => takeRequest kind port shape (owner port) body) s =
      .next (answer port kind (.bare .invalid) s) := by
  rw [atPort_call _ _ _ running, takeRequest_frame _ _ _ _ _ _ short, checkRequest_invalid _ _ _ _ _ _ admitted unshaped]

/-! ## The notice unit -/

/-- A set without a bit at bits 13 to 15 is a notice set (R170). -/
theorem shapeNotices_pair {lo hi : Byte} (defined : hi.toNat < 32) :
    shapeNotices [lo, hi] = some (BitVec.ofNat 13 (lo.toNat + 256 * hi.toNat)) := by
  have number : u16 [lo, hi] 0 = lo.toNat + 256 * hi.toNat := rfl
  have inRange : lo.toNat + 256 * hi.toNat < 8192 := by omega
  simp only [shapeNotices, noticeSetOf, number, if_pos inRange]
  rfl

/-- A notice set is written as it was read (R175). -/
theorem leNotices_ofNat {lo hi : Byte} (defined : hi.toNat < 32) :
    leNotices (BitVec.ofNat 13 (lo.toNat + 256 * hi.toNat)) = [lo, hi] := by
  have inRange : (lo.toNat + 256 * hi.toNat) % 2 ^ 13 = lo.toNat + 256 * hi.toNat := Nat.mod_eq_of_lt (by omega)
  have low : BitVec.ofNat 8 (lo.toNat + 256 * hi.toNat) = lo := BitVec.eq_of_toNat_eq (by simp; omega)
  have high : BitVec.ofNat 8 ((lo.toNat + 256 * hi.toNat) / 256) = hi := BitVec.eq_of_toNat_eq (by simp; omega)
  rw [leNotices, BitVec.toNat_ofNat, inRange, leBytes_two, low, high]

theorem attentionOf_eq (pending mask : NoticeSet) : attentionOf pending mask = decide (pending &&& ~~~mask ≠ 0) := by
  rw [attentionOf, bne, beq_eq_decide, decide_not]

/-- Settles O13: each of the three requests by its owner, on either port. -/
theorem noticeRequestsServeTheirPort : Obligations.NoticeRequestsServeTheirPort := by
  intro port s running n bytes
  refine ⟨request_taken (owner := ownReadNotices) running (admitted_everywhere rfl rfl) (by decide) rfl,
    fun lo hi defined => ⟨?clear, ?mask⟩⟩
  case clear =>
    have taken := request_taken (owner := ownClearNotices) (kind := .clearNotices) (port := port) running
      (admitted_everywhere rfl rfl) (by simp) (shapeNotices_pair (lo := lo) defined)
    simp only [ownClearNotices, setNotices, attentionOf_eq] at taken
    exact taken
  case mask =>
    have taken := request_taken (owner := ownSetNoticeMask) (kind := .setNoticeMask) (port := port) running
      (admitted_everywhere rfl rfl) (by simp) (shapeNotices_pair (lo := lo) defined)
    simp only [ownSetNoticeMask, setNotices, attentionOf_eq, leNotices_ofNat defined] at taken
    exact taken

end Sys2Proof.Machine

/-! # The bytes of a reply: what a number written among other fields reads back as (R175, section 11.9) -/

namespace Sys2Proof.Machine

open Sys2Proof

/-! ## Reading past and within the first fields -/

@[simp] theorem u8_append_left {a : List Byte} {i : Nat} (h : i < a.length) (b : List Byte) :
    u8 (a ++ b) i = u8 a i := by
  rw [u8, List.getD_append _ _ _ _ h, u8]

@[simp] theorem u8_append_right {a : List Byte} {i : Nat} (h : a.length ≤ i) (b : List Byte) :
    u8 (a ++ b) i = u8 b (i - a.length) := by
  rw [u8, List.getD_append_right _ _ _ _ h, u8]

@[simp] theorem u16_append_left {a : List Byte} {i : Nat} (h : i + 1 < a.length) (b : List Byte) :
    u16 (a ++ b) i = u16 a i := by
  rw [u16, u8_append_left (by omega), u8_append_left h, u16]

@[simp] theorem u16_append_right {a : List Byte} {i : Nat} (h : a.length ≤ i) (b : List Byte) :
    u16 (a ++ b) i = u16 b (i - a.length) := by
  rw [u16, u8_append_right h, u8_append_right (by omega), Nat.sub_add_comm h, u16]

@[simp] theorem u32_append_left {a : List Byte} {i : Nat} (h : i + 3 < a.length) (b : List Byte) :
    u32 (a ++ b) i = u32 a i := by
  rw [u32, u16_append_left (by omega), u16_append_left h, u32]

@[simp] theorem u32_append_right {a : List Byte} {i : Nat} (h : a.length ≤ i) (b : List Byte) :
    u32 (a ++ b) i = u32 b (i - a.length) := by
  rw [u32, u16_append_right h, u16_append_right (by omega), Nat.sub_add_comm h, u32]

/-! ## Fields -/

@[simp] theorem u8_leBytes (v : Nat) : u8 (leBytes 1 v) 0 = v % 256 := by simp [u8, leBytes]

@[simp] theorem length_leBool (b : Bool) : (leBool b).length = 1 := by cases b <;> rfl

@[simp] theorem u8_leBool (b : Bool) : u8 (leBool b) 0 = b.toNat := by cases b <;> rfl

@[simp] theorem length_absent (size : Nat) : (absent size).length = size := List.length_replicate

theorem getD_absent {size k : Nat} (h : k < size) : (absent size).getD k 0 = 0xFF := by
  rw [absent, List.getD_replicate _ h]

@[simp] theorem length_leOption (size : Nat) (v : Option Nat) : (leOption size v).length = size := by
  cases v <;> simp [leOption]

/-- An absent 4-byte number is all ones. -/
@[simp] theorem u32_leOption (v : Option Nat) : u32 (leOption 4 v) 0 = v.getD 4294967295 % 4294967296 := by
  cases v with
  | none => rfl
  | some n => exact u32_leBytes n

/-! ## Numbers and codes fit a byte -/

@[simp] theorem DomainId.number_mod (d : DomainId) : d.number % 256 = d.number := by cases d <;> rfl

@[simp] theorem Owner.code_mod (o : Owner) : o.code % 256 = o.code := by cases o <;> rfl

@[simp] theorem AccountState.code_mod (a : AccountState) : a.code % 256 = a.code := by cases a <;> rfl

@[simp] theorem ComplianceState.code_mod (c : ComplianceState) : c.code % 256 = c.code := by cases c <;> rfl

/-! ## Reads that name a number -/

/-- The body of a read names the number of its byte. -/
theorem shapeIndex_byte (b : Byte) : shapeIndex [b] = some b.toNat := rfl

theorem toNat_ofNat_byte {n : Nat} (h : n < 256) : (BitVec.ofNat 8 n).toNat = n := by
  rw [BitVec.toNat_ofNat, Nat.mod_eq_of_lt h]

theorem DomainId.ofNumber_of_le {n : Nat} (h : 3 ≤ n) : DomainId.ofNumber n = none := by
  match n, h with
  | _ + 3, _ => rfl

end Sys2Proof.Machine

/-! # READ_GRANTS and READ_DOMAIN (R91, R127, R164) -/

namespace Sys2Proof.Machine

open Sys2Proof

/-! ## Lengths of the parts (section 11.9) -/

@[simp] theorem length_grantFields (d : DomainId) (g : Grant) : (grantFields d g).length = 13 := by
  simp [grantFields]

@[simp] theorem length_entryFields (e : Entry) : (entryFields e).length = 10 := by simp [entryFields]

@[simp] theorem length_entriesFields (c : PerColumn Entry) : (entriesFields c).length = 50 := by simp [entriesFields]

@[simp] theorem length_accountFields (a : Account) (recover : Nat) : (accountFields a recover).length = 23 := by
  simp [accountFields]

@[simp] theorem length_arbitrationFields (r : DomainRecord) (demand : Nat) (share : Option Nat) :
    (arbitrationFields r demand share).length = 14 := by
  simp [arbitrationFields]

@[simp] theorem length_resolutionFields (d : DomainId) (g : Grant) (c : Contributors) (lmin : Nat) :
    (resolutionFields d g c lmin).length = 33 := by
  simp [resolutionFields]

@[simp] theorem length_complianceFields (r : DomainRecord) (c : Compliance) : (complianceFields r c).length = 8 := by
  simp [complianceFields]

/-- The fields of READ_DOMAIN for D3 are absent but for the number and the REST power (R164). -/
theorem restFields_eq (s : State) :
    restFields s =
      leBytes 1 3 ++ (absent 79 ++ (leBytes 4 (restValue s.powers.pm3 s.restFail) ++ absent 45)) := by
  simp only [restFields, List.append_assoc]
  rfl

/-- Every byte of D3's fields but the number and the REST power is 0xFF. -/
theorem restFields_absent {s : State} {k : Nat} (inside : k < 129) (past : k ≠ 0) (other : k < 80 ∨ 84 ≤ k) :
    (restFields s).getD k 0 = 0xFF := by
  rw [restFields_eq, List.getD_append_right _ _ _ _ (by simp; omega), length_leBytes]
  rcases other with before | behind
  · rw [List.getD_append _ _ _ _ (by simp; omega), getD_absent (by omega)]
  · rw [List.getD_append_right _ _ _ _ (by simp; omega), List.getD_append_right _ _ _ _ (by simp; omega),
      length_absent, length_leBytes, getD_absent (by omega)]

/-! ## The requests -/

theorem readDomain_taken {port : Port} {b : Byte} {s : State} (running : s.inReset = false) :
    exec (.readDomain (s.call port) [b]) s =
      .next (answer port .readDomain (ownReadDomain b.toNat s).2 (ownReadDomain b.toNat s).1) :=
  request_taken (owner := fun _ => ownReadDomain) running (admitted_everywhere rfl rfl) (by simp) (shapeIndex_byte b)

theorem readDomain_domain {port : Port} {d : DomainId} {s : State} (running : s.inReset = false) :
    exec (.readDomain (s.call port) [BitVec.ofNat 8 d.number]) s =
      .next (answer port .readDomain ⟨.ok, domainFields d s⟩ s) := by
  rw [readDomain_taken running, toNat_ofNat_byte (by have := d.number_lt; omega), ownReadDomain,
    DomainId.ofNumber_number]

theorem readDomain_none {port : Port} {b : Byte} {s : State} (running : s.inReset = false) (above : 3 < b.toNat) :
    exec (.readDomain (s.call port) [b]) s = .next (answer port .readDomain (.bare .invalid) s) := by
  have other : b.toNat ≠ 3 := by omega
  rw [readDomain_taken running, ownReadDomain, DomainId.ofNumber_of_le (by omega)]
  simp only [if_neg other]

/-- Settles O10: the owners answer with the fields of section 11.9, which read back part by part. -/
theorem readGrantsAndReadDomainReport : Obligations.ReadGrantsAndReadDomainReport := by
  refine ⟨fun port s running => ⟨grantsFields s, ?grants, by simp [grantsFields], fun d => ?record⟩,
    fun port d s running => ⟨domainFields d s, readDomain_domain running, by simp [domainFields], by simp [domainFields],
      fun c => ?entry, ?account, ?arbitration, ?resolution, ?compliance⟩,
    fun port s running => ⟨restFields s, readDomain_taken (b := 3) running, by simp [restFields_eq],
      by simp [restFields_eq], by simp [restFields_eq, u32_leBytes], fun _ => restFields_absent⟩,
    fun port b s running => readDomain_none running⟩
  case grants =>
    exact request_taken (owner := fun _ _ t => (t, ⟨.ok, grantsFields t⟩)) running (admitted_everywhere rfl rfl)
      (by simp) rfl
  case record => cases d <;> simp [grantsFields, grantFields, DomainId.number, PerDomain.get, u16_leBytes, u32_leBytes]
  case entry =>
    cases c <;> simp [domainFields, entriesFields, entryFields, Column.number, PerColumn.get, u16_leBytes, u32_leBytes]
  case account => simp [domainFields, accountFields, u32_leBytes]
  case arbitration => simp [domainFields, arbitrationFields, u32_leBytes]
  case resolution => simp [domainFields, resolutionFields, grantFields, u16_leBytes, u32_leBytes]
  case compliance => simp [domainFields, complianceFields, u16_leBytes]

end Sys2Proof.Machine

/-! # READ_ZONE and READ_CHANNEL (R165) -/

namespace Sys2Proof.Machine

open Sys2Proof

/-! ## Signed numbers, numbers that may be absent, sets and codes (R175) -/

@[simp] theorem length_leSigned (size : Nat) (v : Int) : (leSigned size v).length = size := by simp [leSigned]

@[simp] theorem u16_leSigned (v : Int) : u16 (leSigned 2 v) 0 = (v % 65536).toNat := by
  rw [leSigned, u16_leBytes, Nat.mod_eq_of_lt (by omega)]
  rfl

@[simp] theorem length_leSignedOption (size : Nat) (v : Option Int) : (leSignedOption size v).length = size := by
  cases v <;> simp [leSignedOption, absentSigned]

/-- An absent signed 2-byte number is the least there is. -/
@[simp] theorem u16_leSignedOption (v : Option Int) :
    u16 (leSignedOption 2 v) 0 = v.elim 0x8000 fun n => (n % 65536).toNat := by
  cases v with
  | none => rfl
  | some n => exact u16_leSigned n

@[simp] theorem u8_leOption (v : Option Nat) : u8 (leOption 1 v) 0 = v.getD 255 % 256 := by
  cases v with
  | none => rfl
  | some n => exact u8_leBytes n

@[simp] theorem u8_absent : u8 (absent 1) 0 = 0xFF := rfl

@[simp] theorem u16_absent : u16 (absent 2) 0 = 0xFFFF := rfl

@[simp] theorem length_leDomains (set : DomainSet) : (leDomains set).length = 1 := by simp [leDomains]

@[simp] theorem u8_leDomains (set : DomainSet) :
    u8 (leDomains set) 0 = set.d0.toNat + 2 * set.d1.toNat + 4 * set.d2.toNat := by
  obtain ⟨d0, d1, d2⟩ := set
  cases d0 <;> cases d1 <;> cases d2 <;> rfl

@[simp] theorem ZoneId.number_mod (z : ZoneId) : z.number % 256 = z.number := by cases z <;> rfl

@[simp] theorem TempId.number_mod (c : TempId) : c.number % 256 = c.number := by cases c <;> rfl

@[simp] theorem PowerId.number_mod (n : PowerId) : n.number % 256 = n.number := by cases n <;> rfl

@[simp] theorem ZoneState.code_mod (v : ZoneState) : v.code % 256 = v.code := by cases v <;> rfl

@[simp] theorem SensorKind.code_mod (k : SensorKind) : k.code % 256 = k.code := by cases k <;> rfl

@[simp] theorem ChannelState.code_mod (v : ChannelState) : v.code % 256 = v.code := by cases v <;> rfl

@[simp] theorem BadIndication.code_mod (b : BadIndication) : b.code % 256 = b.code := by cases b <;> rfl

theorem ZoneId.ofNumber_of_le {n : Nat} (h : 4 ≤ n) : ZoneId.ofNumber n = none := by
  match n, h with
  | _ + 4, _ => rfl

theorem TempId.ofNumber_of_le {n : Nat} (h : 8 ≤ n) : TempId.ofNumber n = none := by
  match n, h with
  | _ + 8, _ => rfl

theorem PowerId.ofNumber_of_le {n : Nat} (h : 5 ≤ n) : PowerId.ofNumber n = none := by
  match n, h with
  | _ + 5, _ => rfl

theorem channelClassOf_of_le {n : Nat} (h : 2 ≤ n) : channelClassOf n = none := by
  match n, h with
  | _ + 2, _ => rfl

/-! ## Source slots and step slots (section 11.9) -/

@[simp] theorem length_sourceSlots (n : Nat) (sources : List Source) : (sourceSlots n sources).length = 3 * n := by
  induction n generalizing sources with
  | zero => rfl
  | succ n ih => cases sources <;> simp [sourceSlots, ih] <;> omega

/-- A source slot holds the source at its place in the list, and the absent markers past the list's end. -/
theorem sourceSlots_slot {n k : Nat} (h : k < n) (sources : List Source) :
    (u8 (sourceSlots n sources) (3 * k), u16 (sourceSlots n sources) (3 * k + 1)) =
      (sources[k]?).elim (0xFF, 0xFFFF) fun src => (src.channel.number, src.weight % 65536) := by
  induction n generalizing k sources with
  | zero => omega
  | succ n ih =>
    cases k with
    | zero => cases sources <;> simp [sourceSlots, u16_leBytes]
    | succ k => cases sources <;> simp [sourceSlots, Nat.mul_succ, ih (Nat.lt_of_succ_lt_succ h)]

@[simp] theorem length_stepSlots (n : Nat) (ladder : List LadderStep) : (stepSlots n ladder).length = 3 * n := by
  induction n generalizing ladder with
  | zero => rfl
  | succ n ih => cases ladder <;> simp [stepSlots, ih] <;> omega

/-- A step slot holds the step at its place in the ladder, and the absent markers past the ladder's end. -/
theorem stepSlots_slot {n k : Nat} (h : k < n) (ladder : List LadderStep) :
    (u16 (stepSlots n ladder) (3 * k), u8 (stepSlots n ladder) (3 * k + 2)) =
      (ladder[k]?).elim (0xFFFF, 0xFF) fun step => (step.offset % 65536, step.percent % 256) := by
  induction n generalizing k ladder with
  | zero => omega
  | succ n ih =>
    cases k with
    | zero => cases ladder <;> simp [stepSlots, u16_leBytes]
    | succ k => cases ladder <;> simp [stepSlots, Nat.mul_succ, ih (Nat.lt_of_succ_lt_succ h)]

/-! ## READ_ZONE -/

@[simp] theorem length_zoneStatus (v : Zone) : (zoneStatus v).length = 5 := by simp [zoneStatus]

@[simp] theorem length_zoneConfigFields (c : ZoneConfig) : (zoneConfigFields c).length = 19 := by
  simp [zoneConfigFields]

@[simp] theorem length_skinFields (limits : PerColumn Int) : (skinFields limits).length = 10 := by simp [skinFields]

theorem zoneFields_source {k : Nat} (h : k < 3) (z : ZoneId) (s : State) :
    (u8 (zoneFields z s) (10 + 3 * k), u16 (zoneFields z s) (11 + 3 * k)) =
      ((s.zones.get z).cfg.sources[k]?).elim (0xFF, 0xFFFF) fun src => (src.channel.number, src.weight % 65536) := by
  have channel : 3 * k < 9 := by omega
  have weight : 3 * k + 2 < 9 := by omega
  rw [← sourceSlots_slot h, Nat.add_comm 10, Nat.add_comm 11]
  simp [zoneFields, zoneConfigFields, channel, weight]

theorem zoneFields_step {k : Nat} (h : k < 8) (z : ZoneId) (s : State) :
    (u16 (zoneFields z s) (28 + 3 * k), u8 (zoneFields z s) (30 + 3 * k)) =
      ((s.zones.get z).ladder[k]?).elim (0xFFFF, 0xFF) fun step => (step.offset % 65536, step.percent % 256) := by
  have offset : 3 * k + 1 < 24 := by omega
  have percent : 3 * k + 2 < 24 := by omega
  rw [← stepSlots_slot h, Nat.add_comm 28, Nat.add_comm 30]
  simp [zoneFields, offset, percent]

/-! ## READ_CHANNEL -/

theorem length_tempFields (c : TempId) (v : TempChannel) : (tempFields c v).length = 20 := by simp [tempFields]

theorem length_powerFields (n : PowerId) (s : State) : (powerFields n s).length = 14 := by simp [powerFields]

/-- Only PM3 has a fail value in a reply (R165). -/
theorem powerFailValue_eq (n : PowerId) (s : State) : powerFailValue n s = if n = .pm3 then some s.restFail else none := by
  cases n <;> rfl

theorem shapeReadChannel_temperature (b : Byte) : shapeReadChannel [0, b] = some (.temperature, b.toNat) := rfl

theorem shapeReadChannel_power (b : Byte) : shapeReadChannel [1, b] = some (.power, b.toNat) := rfl

/-- A class above 1 fails the shape check (R170). -/
theorem shapeReadChannel_undefined {a b : Byte} (undefined : 1 < a.toNat) : shapeReadChannel [a, b] = none := by
  have unknown : channelClassOf (u8 [a, b] 0) = none := channelClassOf_of_le undefined
  rw [shapeReadChannel, unknown]
  rfl

/-! ## The requests -/

theorem readZone_taken {port : Port} {b : Byte} {s : State} (running : s.inReset = false) :
    exec (.readZone (s.call port) [b]) s =
      .next (answer port .readZone (ownReadZone b.toNat s).2 (ownReadZone b.toNat s).1) :=
  request_taken (owner := fun _ => ownReadZone) running (admitted_everywhere rfl rfl) (by simp) (shapeIndex_byte b)

theorem readZone_zone {port : Port} {z : ZoneId} {s : State} (running : s.inReset = false) :
    exec (.readZone (s.call port) [BitVec.ofNat 8 z.number]) s =
      .next (answer port .readZone ⟨.ok, zoneFields z s⟩ s) := by
  rw [readZone_taken running, toNat_ofNat_byte (by have := z.number_lt; omega), ownReadZone, ZoneId.ofNumber_number]

theorem readZone_none {port : Port} {b : Byte} {s : State} (running : s.inReset = false) (above : 3 < b.toNat) :
    exec (.readZone (s.call port) [b]) s = .next (answer port .readZone (.bare .invalid) s) := by
  rw [readZone_taken running, ownReadZone, ZoneId.ofNumber_of_le above]

theorem readChannel_taken {port : Port} {a b : Byte} {r : ChannelClass × Nat} {s : State} (running : s.inReset = false)
    (shaped : shapeReadChannel [a, b] = some r) :
    exec (.readChannel (s.call port) [a, b]) s =
      .next (answer port .readChannel (ownReadChannel r s).2 (ownReadChannel r s).1) :=
  request_taken (owner := fun _ => ownReadChannel) running (admitted_everywhere rfl rfl) (by simp) shaped

theorem readChannel_temp {port : Port} {c : TempId} {s : State} (running : s.inReset = false) :
    exec (.readChannel (s.call port) [0, BitVec.ofNat 8 c.number]) s =
      .next (answer port .readChannel ⟨.ok, tempFields c (s.temps.get c)⟩ s) := by
  rw [readChannel_taken running (shapeReadChannel_temperature _),
    toNat_ofNat_byte (by have := c.number_lt; omega)]
  simp only [ownReadChannel, TempId.ofNumber_number]

theorem readChannel_power {port : Port} {n : PowerId} {s : State} (running : s.inReset = false) :
    exec (.readChannel (s.call port) [1, BitVec.ofNat 8 n.number]) s =
      .next (answer port .readChannel ⟨.ok, powerFields n s⟩ s) := by
  rw [readChannel_taken running (shapeReadChannel_power _), toNat_ofNat_byte (by have := n.number_lt; omega)]
  simp only [ownReadChannel, PowerId.ofNumber_number]

/-- A class above 1 fails the shape check; a number that no channel of the class has is the owner's refusal (R165). -/
theorem readChannel_refused {port : Port} {a b : Byte} {s : State} (running : s.inReset = false)
    (h : 1 < a.toNat ∨ a = 0 ∧ 7 < b.toNat ∨ a = 1 ∧ 4 < b.toNat) :
    exec (.readChannel (s.call port) [a, b]) s = .next (answer port .readChannel (.bare .invalid) s) := by
  rcases h with undefined | ⟨rfl, above⟩ | ⟨rfl, above⟩
  · exact request_invalid (owner := fun _ => ownReadChannel) running (admitted_everywhere rfl rfl) (by simp)
      (shapeReadChannel_undefined undefined)
  · rw [readChannel_taken running (shapeReadChannel_temperature b)]
    simp only [ownReadChannel, TempId.ofNumber_of_le above]
  · rw [readChannel_taken running (shapeReadChannel_power b)]
    simp only [ownReadChannel, PowerId.ofNumber_of_le above]

/-- Settles O11: the owners answer with the fields of section 11.9, which read back one by one. -/
theorem readZoneAndReadChannelReport : Obligations.ReadZoneAndReadChannelReport := by
  refine ⟨⟨fun port z s running => ⟨zoneFields z s, readZone_zone running, by simp [zoneFields], by simp [zoneFields],
      ?state, ?estimate, ?position, ?percent, ?held, ?degraded, ?enabled, ?count, fun k h => ?source, ?influence,
      ?alpha, ?interval, ?hysteresis, ?dwell, ?margin, ?steps, fun k h => ?step, fun c => ?limit⟩,
      fun port b s running => readZone_none running⟩,
    fun port c s running => ⟨tempFields c (s.temps.get c), readChannel_temp running, length_tempFields _ _, ?temp⟩,
    fun port n s running => ⟨powerFields n s, readChannel_power running, length_powerFields _ _, ?power⟩,
    fun port a b s running => ⟨fun undefined => readChannel_refused running (.inl undefined),
      fun above => readChannel_refused running (.inr (.inl ⟨rfl, above⟩)),
      fun above => readChannel_refused running (.inr (.inr ⟨rfl, above⟩))⟩⟩
  case state | position | percent => simp [zoneFields, zoneStatus]
  case estimate => cases known : (s.zones.get z).estimate <;> simp [zoneFields, zoneStatus, known]
  case held | degraded | steps => simp [zoneFields]
  case enabled | count | influence | alpha | interval | hysteresis | dwell | margin =>
    simp [zoneFields, zoneConfigFields, u16_leBytes]
  case source =>
    rw [zoneFields_source h]
    cases (s.zones.get z).cfg.sources[k]? <;> rfl
  case step =>
    rw [zoneFields_step h]
    cases (s.zones.get z).ladder[k]? <;> rfl
  case limit => cases c <;> simp [zoneFields, skinFields, Column.number, PerColumn.get]
  case temp =>
    cases value : (s.temps.get c).value <;> cases bad : (s.temps.get c).firstBad <;>
      simp [tempFields, u16_leBytes, value, bad]
  case power => by_cases pm3 : n = .pm3 <;> simp [powerFields, powerFailValue_eq, pm3]

end Sys2Proof.Machine

/-! # READ_FAULTS (R166) -/

namespace Sys2Proof.Machine

open Sys2Proof

@[simp] theorem u32_leSigned (v : Int) : u32 (leSigned 4 v) 0 = (v % 4294967296).toNat := by
  rw [leSigned, u32_leBytes, Nat.mod_eq_of_lt (by omega)]
  rfl

/-- An absent signed 4-byte number is the least there is. -/
@[simp] theorem u32_leSignedOption (v : Option Int) :
    u32 (leSignedOption 4 v) 0 = v.elim 0x80000000 fun n => (n % 4294967296).toNat := by
  cases v with
  | none => rfl
  | some n => exact u32_leSigned n

@[simp] theorem FaultKind.code_mod (k : FaultKind) : k.code % 256 = k.code := by cases k <;> rfl

@[simp] theorem Severity.code_mod (v : Severity) : v.code % 256 = v.code := by cases v <;> rfl

@[simp] theorem length_presentField (present : Option Bool) : (presentField present).length = 1 := by
  cases present <;> simp [presentField]

@[simp] theorem u8_presentField (present : Option Bool) : u8 (presentField present) 0 = present.elim 255 Bool.toNat := by
  cases present with
  | none => rfl
  | some b => exact u8_leBool b

@[simp] theorem length_faultFields (r : FaultRecord) : (faultFields r).length = 17 := by simp [faultFields]

theorem length_flatten_faultFields (log : List FaultRecord) :
    ((log.map faultFields).flatten).length = 17 * log.length := by
  induction log with
  | nil => rfl
  | cons r log ih =>
    rw [List.map_cons, List.flatten_cons, List.length_append, ih, length_faultFields, List.length_cons]
    omega

/-- A record stands behind those before it, 17 bytes each (section 11.9). -/
theorem flatten_faultFields_at {log : List FaultRecord} {k : Nat} {r : FaultRecord} (h : log[k]? = some r) :
    ∃ before behind, (log.map faultFields).flatten = before ++ (faultFields r ++ behind) ∧ before.length = 17 * k := by
  induction log generalizing k with
  | nil => simp at h
  | cons first log ih =>
    cases k with
    | zero =>
      obtain rfl : first = r := by simpa using h
      exact ⟨[], (log.map faultFields).flatten, rfl, rfl⟩
    | succ k =>
      obtain ⟨before, behind, parts, length⟩ := ih (by simpa using h)
      refine ⟨faultFields first ++ before, behind, by simp [parts], ?_⟩
      rw [List.length_append, length_faultFields, length]
      omega

/-- The records that a read returns are those from the start index on, at most four (R166). -/
theorem length_returned (start : Nat) (log : List FaultRecord) :
    ((log.drop start).take 4).length = min 4 (log.length - start) := by
  rw [List.length_take, List.length_drop]

/-- A returned record stands in its place behind the two counts. -/
theorem faultsFields_at {start k : Nat} {log : List FaultRecord} {r : FaultRecord}
    (returned : k < min 4 (log.length - start)) (h : log[start + k]? = some r) :
    ∃ before behind, faultsFields start log = before ++ (faultFields r ++ behind) ∧ before.length = 2 + 17 * k := by
  have record : ((log.drop start).take 4)[k]? = some r := by
    rw [List.getElem?_take_of_lt (by omega), List.getElem?_drop, h]
  obtain ⟨before, behind, parts, length⟩ := flatten_faultFields_at record
  refine ⟨leBytes 1 log.length ++ leBytes 1 ((log.drop start).take 4).length ++ before, behind, ?_, ?_⟩
  · simp only [faultsFields, parts, List.append_assoc]
  · simp only [List.length_append, length_leBytes, length]

/-- Settles O12: the counts first, then the returned records, each read back at its place. -/
theorem readFaultsReportsTheLog : Obligations.ReadFaultsReportsTheLog := by
  intro port start s running
  refine ⟨faultsFields start.toNat s.faults, ?taken, ?length, ?count, ?returned, fun k r inside found => ?record⟩
  case taken =>
    exact request_taken (owner := fun _ start t => (t, ⟨.ok, faultsFields start t.faults⟩)) running
      (admitted_everywhere rfl rfl) (by simp) (shapeIndex_byte start)
  case length =>
    simp only [faultsFields, List.length_append, length_leBytes, length_flatten_faultFields, length_returned]
  case count => simp [faultsFields]
  case returned =>
    have few : min 4 (s.faults.length - start.toNat) % 256 = min 4 (s.faults.length - start.toNat) :=
      Nat.mod_eq_of_lt (by omega)
    simp [faultsFields, few]
  case record =>
    obtain ⟨before, behind, parts, length⟩ := faultsFields_at inside found
    dsimp only
    rw [parts, ← length]
    cases present : r.present <;> cases value : r.firstValue <;> simp [faultFields, u32_leBytes, present, value]

end Sys2Proof.Machine

/-! # IDENTIFY (R174) -/

namespace Sys2Proof.Machine

open Sys2Proof

/-- The five values of R174 byte for byte, the part code's low byte first (R175). -/
theorem identifyFields_eq (port : Port) (s : State) :
    identifyFields port s =
      [0x43, 0x04, 0x32, 1, BitVec.ofNat 8 (portLetter port), if s.adrsel then 1 else 0] := rfl

/-- The reply to IDENTIFY is its owner's on either port and in either mode, and it changes nothing else (R174). -/
theorem identify_taken {port : Port} {s : State} (running : s.inReset = false) :
    exec (.identify (s.call port) []) s = .next (answer port .identify ⟨.ok, identifyFields port s⟩ s) :=
  request_taken (owner := fun port _ t => (t, ⟨.ok, identifyFields port t⟩)) running (admitted_everywhere rfl rfl)
    (by simp) rfl

/-- Settles O8: the owner's reply, with the letter of each port. -/
theorem identifyReportsThePart : Obligations.IdentifyReportsThePart := by
  intro port s running
  rw [identify_taken running, identifyFields_eq]
  cases port
  case platform => rfl
  case system => rfl

end Sys2Proof.Machine

/-! # Every request is served the same way: port, mode, shape, owner, reply (R169, R170) -/

namespace Sys2Proof.Machine

open Sys2Proof

/-! ## The owner of each kind -/

/-- What an owner makes of a body, none for a body without the shape of its kind (check 5 of R169). -/
def served {α : Type} (shape : List Byte → Option α) (owner : α → State → State × Reply) (body : List Byte) (s : State) :
    Option (State × Reply) :=
  (shape body).map fun r => owner r s

/-- The next state and the reply of a request that passes checks 3 and 4 of R169, by its kind's shape and owner. -/
def serve (kind : Kind) (port : Port) (body : List Byte) (s : State) : Option (State × Reply) :=
  match kind with
  | .identify => served shapeEmpty (fun _ t => (t, ⟨.ok, identifyFields port t⟩)) body s
  | .readStatus => served shapeEmpty (fun _ t => (t, ⟨.ok, statusFields t⟩)) body s
  | .readGrants => served shapeEmpty (fun _ t => (t, ⟨.ok, grantsFields t⟩)) body s
  | .readDomain => served shapeIndex ownReadDomain body s
  | .readZone => served shapeIndex ownReadZone body s
  | .readChannel => served shapeReadChannel ownReadChannel body s
  | .readFaults => served shapeIndex (fun start t => (t, ⟨.ok, faultsFields start t.faults⟩)) body s
  | .readNotices => served shapeEmpty (ownReadNotices port) body s
  | .clearNotices => served shapeNotices (ownClearNotices port) body s
  | .setNoticeMask => served shapeNotices (ownSetNoticeMask port) body s
  | .clearFaults => served shapeEmpty ownClearFaults body s
  | .setChannel => served shapeSetChannel ownSetChannel body s
  | .setPowerChannel => served shapeSetPowerChannel ownSetPowerChannel body s
  | .setInput => served shapeSetInput ownSetInput body s
  | .setPostureTiming => served shapeSetPostureTiming ownSetPostureTiming body s
  | .setZone => served shapeSetZone ownSetZone body s
  | .setLadder => served shapeSetLadder ownSetLadder body s
  | .setProfile => served shapeSetProfile ownSetProfile body s
  | .setSkinLimits => served shapeSetSkinLimits ownSetSkinLimits body s
  | .setDomain => served shapeSetDomain ownSetDomain body s
  | .setRouting => served shapeSetRouting ownSetRouting body s
  | .setSupplyConfig => served shapeSetSupplyConfig ownSetSupplyConfig body s
  | .supplyReport => served shapeSupplyReport ownSupplyReport body s
  | .setCap => served shapeSetCap (ownSetCap port) body s
  | .postureHint => served shapePostureHint (ownPostureHint port) body s
  | .forceLine => served shapeForceLine ownForceLine body s
  | .activate => served shapeEmpty ownActivate body s
  | .deactivate => served shapeEmpty ownDeactivate body s

/-! ## The checks in front of the owner -/

/-- Checks 3 to 5 of R169 in their order, and the reply of the owner behind them. -/
def respond (kind : Kind) (port : Port) (done : State → Option (State × Reply)) (s : State) : State :=
  if portListed kind port = false then answer port kind (.bare .denied) s
  else if modeAllows kind port s.mode = false then answer port kind (.bare .state) s
  else
    match done s with
    | none => answer port kind (.bare .invalid) s
    | some done => answer port kind done.2 done.1

theorem checkRequest_eq_respond {α : Type} (kind : Kind) (port : Port) (shape : List Byte → Option α)
    (owner : α → State → State × Reply) (body : List Byte) (s : State) :
    checkRequest kind port shape owner body s = respond kind port (served shape owner body) s := by
  unfold checkRequest respond served
  simp only [Bool.not_eq_true']
  cases shape body <;> rfl

theorem takeRequest_eq_respond {α : Type} (kind : Kind) (port : Port) (shape : List Byte → Option α)
    (owner : α → State → State × Reply) (body : List Byte) (s : State) :
    takeRequest kind port shape owner body s =
      takeWrite port (frame (kindCode kind) body)
        (fun _ received => respond kind port (served shape owner received)) s := by
  unfold takeRequest
  simp only [funext (checkRequest_eq_respond kind port shape owner _)]

/-- Every request command is the write of its frame, the checks in front of its kind's owner, and the owner (R168,
R169). -/
theorem exec_requestOf (kind : Kind) (call : Call) (body : List Byte) (s : State) :
    exec (requestOf kind call body) s =
      atPort call (fun port => takeWrite port (frame (kindCode kind) body)
        fun _ received => respond kind port (serve kind port received)) s := by
  have sameAt : ∀ {f g : Port → State → State}, (∀ port t, f port t = g port t) → atPort call f s = atPort call g s :=
    fun h => congrArg (fun f => atPort call f s) (funext fun port => funext (h port))
  cases kind <;> exact sameAt fun port t => takeRequest_eq_respond _ port _ _ body t

/-- A request command is the request of its kind, call and body. -/
theorem eq_requestOf_of_parts {i : Instr} {kind : Kind} {call : Call} {body : List Byte}
    (h : requestParts i = some (kind, call, body)) : i = requestOf kind call body := by
  cases i <;> cases h <;> rfl

/-! ## What a request's answer is -/

/-- A request on a port's own address whose body has at most 60 bytes meets checks 3 to 5 of R169. -/
theorem exec_request {kind : Kind} {port : Port} {body : List Byte} {s : State} (running : s.inReset = false)
    (short : body.length ≤ 60) :
    exec (requestOf kind (s.call port) body) s = .next (respond kind port (serve kind port body) s) := by
  rw [exec_requestOf, atPort_call _ _ _ running, takeWrite_frame _ _ _ _ (frameWellFormed_frame _ _ short),
    frameBody_frame]

theorem respond_denied {kind : Kind} {port : Port} {done : State → Option (State × Reply)} {s : State}
    (h : portListed kind port = false) : respond kind port done s = answer port kind (.bare .denied) s := if_pos h

theorem respond_state {kind : Kind} {port : Port} {done : State → Option (State × Reply)} {s : State}
    (listed : portListed kind port = true) (h : modeAllows kind port s.mode = false) :
    respond kind port done s = answer port kind (.bare .state) s := by
  simp [respond, listed, h]

theorem respond_invalid {kind : Kind} {port : Port} {done : State → Option (State × Reply)} {s : State}
    (admitted : Admitted kind port s) (h : done s = none) :
    respond kind port done s = answer port kind (.bare .invalid) s := by
  simp [respond, admitted.1, admitted.2, h]

theorem respond_served {kind : Kind} {port : Port} {done : State → Option (State × Reply)} {s : State}
    {result : State × Reply} (admitted : Admitted kind port s) (h : done s = some result) :
    respond kind port done s = answer port kind result.2 result.1 := by
  simp [respond, admitted.1, admitted.2, h]

/-- What the checks in front of an owner can answer: a bare status with nothing done, or the owner's reply with what the
owner did. -/
theorem respond_cases (kind : Kind) (port : Port) (done : State → Option (State × Reply)) (s : State) :
    (∃ status, respond kind port done s = answer port kind (.bare status) s) ∨
      ∃ result, Admitted kind port s ∧ done s = some result ∧
        respond kind port done s = answer port kind result.2 result.1 := by
  cases listed : portListed kind port with
  | false => exact .inl ⟨_, respond_denied listed⟩
  | true =>
    cases allowed : modeAllows kind port s.mode with
    | false => exact .inl ⟨_, respond_state listed allowed⟩
    | true =>
      cases own : done s with
      | none => exact .inl ⟨_, respond_invalid ⟨listed, allowed⟩ own⟩
      | some result => exact .inr ⟨result, ⟨listed, allowed⟩, rfl, respond_served ⟨listed, allowed⟩ own⟩

/-- The reply frame of a status alone (R171): kind, length 1, status, and the byte that makes the sum 0. -/
theorem replyFrame_bare (kind : Kind) (status : Status) :
    replyFrame (replyKind (kindCode kind)) (.bare status) =
      [kindCode kind + 0x80, 0x01, status.code, 0x7F - kindCode kind - status.code] := by
  cases kind <;> cases status <;> decide

end Sys2Proof.Machine

/-! # Checks 3 to 5 of R169 and unknown instances (R169 to R171) -/

namespace Sys2Proof.Machine

open Sys2Proof

/-! ## Codes that are defined (R170) -/

theorem yesNo_isSome (n : Nat) : (yesNo n).isSome = true ↔ n ≤ 1 := by
  rcases n with _ | _ | n <;> simp [yesNo]

theorem sensorKindOf_isSome (n : Nat) : (sensorKindOf n).isSome = true ↔ n ≤ 1 := by
  rcases n with _ | _ | n <;> simp [sensorKindOf]

theorem inputPolarityOf_isSome (n : Nat) : (inputPolarityOf n).isSome = true ↔ n ≤ 1 := by
  rcases n with _ | _ | n <;> simp [inputPolarityOf]

theorem linePolarityOf_isSome (n : Nat) : (linePolarityOf n).isSome = true ↔ n ≤ 1 := by
  rcases n with _ | _ | n <;> simp [linePolarityOf]

theorem outputTypeOf_isSome (n : Nat) : (outputTypeOf n).isSome = true ↔ n ≤ 1 := by
  rcases n with _ | _ | n <;> simp [outputTypeOf]

theorem channelClassOf_isSome (n : Nat) : (channelClassOf n).isSome = true ↔ n ≤ 1 := by
  rcases n with _ | _ | n <;> simp [channelClassOf]

theorem triggerOf_isSome (n : Nat) : (triggerOf n).isSome = true ↔ n ≤ 3 := by
  rcases n with _ | _ | _ | _ | n <;> simp [triggerOf]

theorem hintCodeOf_isSome (n : Nat) : (hintCodeOf n).isSome = true ↔ n ≤ 3 ∨ n = 255 := by
  unfold hintCodeOf
  split <;> simp_all
  omega

theorem domainSetOf_isSome (n : Nat) : (domainSetOf n).isSome = true ↔ n < 8 := by
  unfold domainSetOf
  split <;> simp [*]

theorem noticeSetOf_isSome (n : Nat) : (noticeSetOf n).isSome = true ↔ n < 8192 := by
  unfold noticeSetOf
  split <;> simp [*]

/-! ## The shape of each kind (R170) -/

theorem served_isSome {α : Type} (shape : List Byte → Option α) (owner : α → State → State × Reply) (body : List Byte)
    (s : State) : (served shape owner body s).isSome = (shape body).isSome := by
  simp [served]

/-- A body is taken by its kind's shape check exactly where it has the shape of the kind (R170). -/
theorem serve_isSome (kind : Kind) (port : Port) (body : List Byte) (s : State) :
    (serve kind port body s).isSome = true ↔ shaped kind body := by
  have len : ∀ {α : Type} (n : Nat) (x : Option α), (if body.length = n then x else none).isSome = true ↔
      body.length = n ∧ x.isSome = true := by
    intro α n x
    split <;> simp [*]
  cases kind <;> simp only [serve, served_isSome, shaped, bodyLength, fieldsDefined]
  case identify | readStatus | readGrants | readNotices | clearFaults | activate | deactivate =>
    simp [shapeEmpty]
  case readDomain | readZone | readFaults => simp [shapeIndex]
  case readChannel => simp only [shapeReadChannel, len, Option.isSome_map, channelClassOf_isSome]
  case clearNotices | setNoticeMask => simp only [shapeNotices, len, noticeSetOf_isSome]
  case setChannel =>
    rw [shapeSetChannel, len, ← yesNo_isSome, ← sensorKindOf_isSome]
    cases yesNo (u8 body 1) <;> cases sensorKindOf (u8 body 2) <;> simp
  case setPowerChannel | setPostureTiming | setProfile | setSkinLimits | setSupplyConfig | supplyReport | setCap =>
    simp [shapeSetPowerChannel, shapeSetPostureTiming, shapeSetProfile, shapeSetSkinLimits, shapeSetSupplyConfig,
      shapeSupplyReport, shapeSetCap]
  case setInput =>
    rw [shapeSetInput, len, ← inputPolarityOf_isSome, ← triggerOf_isSome]
    cases inputPolarityOf (u8 body 1) <;> cases triggerOf (u8 body 4) <;> simp
  case setZone =>
    rw [shapeSetZone, len, ← yesNo_isSome, ← domainSetOf_isSome]
    cases yesNo (u8 body 1) <;> cases domainSetOf (u8 body 12) <;> simp
  case setLadder =>
    unfold shapeSetLadder
    split <;> simp <;> omega
  case setDomain =>
    rw [shapeSetDomain, len, ← yesNo_isSome]
    cases yesNo (u8 body 2) <;> simp
  case setRouting =>
    rw [shapeSetRouting, len, ← domainSetOf_isSome, ← outputTypeOf_isSome, ← linePolarityOf_isSome]
    cases domainSetOf (u8 body 1) <;> cases outputTypeOf (u8 body 2) <;> cases linePolarityOf (u8 body 3) <;> simp
  case postureHint => simp only [shapePostureHint, len, hintCodeOf_isSome]
  case forceLine => simp only [shapeForceLine, len, Option.isSome_map, yesNo_isSome]

theorem serve_eq_none {kind : Kind} {port : Port} {body : List Byte} {s : State} (h : ¬shaped kind body) :
    serve kind port body s = none := by
  rw [← Option.not_isSome_iff_eq_none, serve_isSome]
  exact h

/-! ## Checks 3 to 5 -/

/-- Settles O6: the three checks in front of the owner, each with its bare reply. -/
theorem refusedRequestsOnlyAnswer : Obligations.RefusedRequestsOnlyAnswer := by
  intro kind port body s running short refused denied wrongMode
  have answered : ∀ status : Status, respond kind port (serve kind port body) s = answer port kind (.bare status) s →
      refused status.code := by
    intro status h
    simp only [refused, exec_request running short, h, answer, replyFrame_bare]
  have listed : ¬denied → portListed kind port = true := by
    intro h
    cases port <;> cases kind <;> simp_all [denied, portListed]
  have allowed : ¬wrongMode → modeAllows kind port s.mode = true := by
    intro h
    cases port <;> cases mode : s.mode <;> cases kind <;> simp_all [wrongMode, modeAllows, modeNamed]
  refine ⟨fun h => answered .denied (respond_denied ?_), fun h h' => answered .state (respond_state (listed h) ?_),
    fun h h' h'' => answered .invalid (respond_invalid ⟨listed h, allowed h'⟩ (serve_eq_none h''))⟩
  · obtain ⟨rfl, h⟩ := h
    cases kind <;> simp_all [portListed]
  · rcases h' with ⟨mode, h'⟩ | ⟨mode, rfl, h'⟩ <;> cases kind <;> simp_all [modeAllows, modeNamed]

/-! ## Instances that the part has not -/

theorem InputId.ofNumber_of_le {n : Nat} (h : 4 ≤ n) : InputId.ofNumber n = none := by
  obtain ⟨k, rfl⟩ := Nat.exists_eq_add_of_le' h
  rfl

theorem LineId.ofNumber_of_le {n : Nat} (h : 4 ≤ n) : LineId.ofNumber n = none := by
  obtain ⟨k, rfl⟩ := Nat.exists_eq_add_of_le' h
  rfl

theorem Column.ofNumber_of_le {n : Nat} (h : 5 ≤ n) : Column.ofNumber n = none := by
  obtain ⟨k, rfl⟩ := Nat.exists_eq_add_of_le' h
  rfl

/-- A slot with a channel number above 7 names no source (R70). -/
theorem sourcesOf_unknown {slots : List SourceSlot} (h : ∃ slot ∈ slots, 7 < slot.channel) : sourcesOf slots = none := by
  induction slots with
  | nil => simp at h
  | cons slot rest ih =>
    unfold sourcesOf
    by_cases high : 7 < slot.channel
    · rw [TempId.ofNumber_of_le high]
    · rw [ih (by simpa [high] using h)]
      split <;> simp_all

/-- A shape with the length of its kind takes at most 60 bytes. -/
theorem shaped.length_le {kind : Kind} {body : List Byte} (h : shaped kind body) : body.length ≤ 60 := by
  obtain ⟨length, fields⟩ := h
  rw [length]
  cases kind <;> simp [bodyLength, fieldsDefined] at fields ⊢
  omega

/-- An owner that finds no instance does nothing and answers INVALID. -/
theorem served_unknown {α : Type} {shape : List Byte → Option α} {owner : α → State → State × Reply} {body : List Byte}
    {s : State} (taken : (served shape owner body s).isSome = true)
    (unknown : ∀ r, shape body = some r → owner r s = (s, .bare .invalid)) :
    served shape owner body s = some (s, .bare .invalid) := by
  rw [served_isSome, Option.isSome_iff_exists] at taken
  obtain ⟨r, h⟩ := taken
  rw [served, h, Option.map_some, unknown r h]

/-! ### The byte that names the instance -/

theorem shapeIndex_names {body : List Byte} {n : Nat} (h : shapeIndex body = some n) : n = u8 body 0 := by
  unfold shapeIndex at h
  split at h <;> cases h
  rfl

theorem shapeSetProfile_names {body : List Byte} {r : ProfileRequest} (h : shapeSetProfile body = some r) :
    r.domain = u8 body 0 ∧ r.column = u8 body 1 := by
  unfold shapeSetProfile at h
  split at h <;> cases h
  exact ⟨rfl, rfl⟩

theorem shapeSetCap_names {body : List Byte} {r : CapRequest} (h : shapeSetCap body = some r) :
    r.domain = u8 body 0 := by
  unfold shapeSetCap at h
  split at h <;> cases h
  rfl

theorem shapeForceLine_names {body : List Byte} {r : ForceRequest} (h : shapeForceLine body = some r) :
    r.line = u8 body 0 := by
  unfold shapeForceLine at h
  split at h
  · obtain ⟨_, _, rfl⟩ := Option.map_eq_some_iff.mp h
    rfl
  · cases h

theorem shapeSetPowerChannel_names {body : List Byte} {r : PowerChannelRequest} (h : shapeSetPowerChannel body = some r) :
    r.channel = u8 body 0 := by
  unfold shapeSetPowerChannel at h
  split at h <;> cases h
  rfl

theorem shapeSetLadder_names {body : List Byte} {r : LadderRequest} (h : shapeSetLadder body = some r) :
    r.zone = u8 body 0 := by
  unfold shapeSetLadder at h
  split at h <;> cases h
  rfl

theorem shapeSetSkinLimits_names {body : List Byte} {r : SkinRequest} (h : shapeSetSkinLimits body = some r) :
    r.zone = u8 body 0 := by
  unfold shapeSetSkinLimits at h
  split at h <;> cases h
  rfl

theorem shapeSetChannel_names {body : List Byte} {r : ChannelRequest} (h : shapeSetChannel body = some r) :
    r.channel = u8 body 0 := by
  unfold shapeSetChannel at h
  split at h
  · split at h <;> cases h
    rfl
  · cases h

theorem shapeSetInput_names {body : List Byte} {r : InputRequest} (h : shapeSetInput body = some r) :
    r.line = u8 body 0 := by
  unfold shapeSetInput at h
  split at h
  · split at h <;> cases h
    rfl
  · cases h

theorem shapeSetZone_names {body : List Byte} {r : ZoneRequest} (h : shapeSetZone body = some r) :
    r.zone = u8 body 0 := by
  unfold shapeSetZone at h
  split at h
  · split at h <;> cases h
    rfl
  · cases h

theorem shapeSetDomain_names {body : List Byte} {r : DomainRequest} (h : shapeSetDomain body = some r) :
    r.domain = u8 body 0 := by
  unfold shapeSetDomain at h
  split at h
  · split at h <;> cases h
    rfl
  · cases h

theorem shapeSetRouting_names {body : List Byte} {r : RoutingRequest} (h : shapeSetRouting body = some r) :
    r.line = u8 body 0 := by
  unfold shapeSetRouting at h
  split at h
  · split at h <;> cases h
    rfl
  · cases h

/-- The slots of SET_ZONE that count (R70). -/
theorem shapeSetZone_slots {body : List Byte} {r : ZoneRequest} (h : shapeSetZone body = some r) :
    r.slots = [⟨u8 body 3, u16 body 4⟩, ⟨u8 body 6, u16 body 7⟩, ⟨u8 body 9, u16 body 10⟩].take (u8 body 2) := by
  unfold shapeSetZone at h
  split at h
  · split at h <;> cases h
    rfl
  · cases h

/-! ### INVALID -/

/-- The requests that name an instance by their first byte, with a number that the part has not. -/
theorem serve_unknownInstance {kind : Kind} {port : Port} {body : List Byte} {s : State} {m : Nat}
    (taken : (serve kind port body s).isSome = true) (limit : instanceLimit kind = some m) (h : m < u8 body 0) :
    serve kind port body s = some (s, .bare .invalid) := by
  cases kind <;> cases limit <;> refine served_unknown taken fun r shape => ?_
  case readDomain =>
    cases shapeIndex_names shape
    rw [ownReadDomain, DomainId.ofNumber_of_le (Nat.le_of_succ_le h)]
    exact if_neg (Nat.ne_of_gt h)
  case readZone =>
    cases shapeIndex_names shape
    rw [ownReadZone, ZoneId.ofNumber_of_le h]
  case setChannel => rw [ownSetChannel, shapeSetChannel_names shape, TempId.ofNumber_of_le h]
  case setPowerChannel => rw [ownSetPowerChannel, shapeSetPowerChannel_names shape, PowerId.ofNumber_of_le h]
  case setInput => rw [ownSetInput, shapeSetInput_names shape, InputId.ofNumber_of_le h]
  case setZone => rw [ownSetZone, shapeSetZone_names shape, ZoneId.ofNumber_of_le h]
  case setLadder => rw [ownSetLadder, shapeSetLadder_names shape, ZoneId.ofNumber_of_le h]
  case setProfile => rw [ownSetProfile, (shapeSetProfile_names shape).1, DomainId.ofNumber_of_le h]
  case setSkinLimits => rw [ownSetSkinLimits, shapeSetSkinLimits_names shape, ZoneId.ofNumber_of_le h]
  case setDomain => rw [ownSetDomain, shapeSetDomain_names shape, DomainId.ofNumber_of_le h]
  case setRouting => rw [ownSetRouting, shapeSetRouting_names shape, LineId.ofNumber_of_le h]
  case setCap => rw [ownSetCap, shapeSetCap_names shape, DomainId.ofNumber_of_le h]
  case forceLine => rw [ownForceLine, shapeForceLine_names shape, LineId.ofNumber_of_le h]

/-- SET_PROFILE with a column that the part has not (R46). -/
theorem serve_unknownColumn {port : Port} {body : List Byte} {s : State}
    (taken : (serve .setProfile port body s).isSome = true) (h : 4 < u8 body 1) :
    serve .setProfile port body s = some (s, .bare .invalid) :=
  served_unknown taken fun r shape => by
    rw [ownSetProfile, (shapeSetProfile_names shape).2, Column.ofNumber_of_le h]
    split <;> simp_all

/-- SET_ZONE with a source slot that names a channel that the part has not (R70). -/
theorem serve_unknownSource {port : Port} {body : List Byte} {s : State} {k : Nat}
    (taken : (serve .setZone port body s).isSome = true) (counts : k < u8 body 2) (slot : k < 3)
    (h : 7 < u8 body (3 + 3 * k)) : serve .setZone port body s = some (s, .bare .invalid) :=
  served_unknown taken fun r shape => by
    have named : ∃ slot ∈ r.slots, 7 < slot.channel := by
      rw [shapeSetZone_slots shape]
      refine ⟨_, List.mem_of_getElem? (i := k) (a := ⟨u8 body (3 + 3 * k), u16 body (4 + 3 * k)⟩) ?_, h⟩
      rw [List.getElem?_take_of_lt counts]
      interval_cases k <;> rfl
    rw [ownSetZone, sourcesOf_unknown named]
    split <;> simp_all

/-- Settles O7: the owner finds no instance of the number, and its reply is the bare INVALID. -/
theorem unknownInstancesAreInvalid : Obligations.UnknownInstancesAreInvalid := by
  intro kind port body s running admitted shape unknown
  have taken := (serve_isSome kind port body s).mpr shape
  have refused : serve kind port body s = some (s, .bare .invalid) := by
    rcases unknown with ⟨m, limit, h⟩ | ⟨rfl, h⟩ | ⟨rfl, k, counts, slot, h⟩
    · exact serve_unknownInstance taken limit h
    · exact serve_unknownColumn taken h
    · exact serve_unknownSource taken counts slot h
  rw [exec_request running shape.length_le, respond_served admitted refused, answer, replyFrame_bare]
  cases kind <;> rfl

end Sys2Proof.Machine

/-! # What the commands do, owner by owner and event by event -/

namespace Sys2Proof.Machine

open Sys2Proof

/-! ## Requests -/

/-- The configuration that a taken SET_ZONE stores (R70). -/
def ZoneRequest.config (r : ZoneRequest) (sources : List Source) : ZoneConfig :=
  { enabled := r.enabled, sources := sources, influence := r.influence, alpha := r.alpha
    interval := clampStep 100 100 10000 r.interval
    hysteresis := r.hysteresis, descentDwell := r.descentDwell, tripMargin := r.tripMargin }

/-- A property that the owners of the requests keep, but for the kinds exempted, where what came before the command is
`Pre`: one field for each change that an owner makes, with what its validation has found. -/
structure KeptByRequests (exempt : List Kind) (Pre P : State → Prop) : Prop where
  clearNotices : .clearNotices ∉ exempt → ∀ port pending mask s, P s → P (setNotices port pending mask s)
  setNoticeMask : .setNoticeMask ∉ exempt → ∀ port pending mask s, P s → P (setNotices port pending mask s)
  clearFaults : .clearFaults ∉ exempt → ∀ u s, P s → P (ownClearFaults u s).1
  channel : ∀ c cfg s, Pre s → P s → channelValid c cfg s = true → P (configureChannel c cfg s)
  power : ∀ n interval hold fail s, P s → P (configurePower n interval hold fail s)
  input : .setInput ∉ exempt → ∀ l cfg s, P s → s.mode = .safe → P (configureInput l cfg s)
  timing : ∀ enter relax s, P s → P { s with enterDwell := enter, relaxDwell := relax }
  zone : ∀ z (r : ZoneRequest) sources s, P s → s.mode = .safe → zoneValid r sources s = true →
    P (configureZone z (r.config sources) s)
  ladder : ∀ z steps s, P s → ladderValid steps = true → P (configureLadder z steps s)
  profile : .setProfile ∉ exempt → ∀ d c e s, P s → entryValid e (s.domains.get d).lmin = true →
    P (storeEntry d c e s)
  skin : ∀ z limits s, P s → limitsValid limits = true → P (storeLimits z limits s)
  domain : .setDomain ∉ exempt → ∀ d r s, P s → s.mode = .safe → recordValid r (s.profile.get d) = true →
    P (configureDomain d r s)
  routing : ∀ l cfg s, P s → s.mode = .safe → outputValid cfg = true → P (configureLine l cfg s)
  supplyConfig : ∀ c s, P s → s.mode = .safe → P (configureSupply c s)
  report : ∀ r s, P s → P (endEvent (recomputeShares { s with report := r }))
  cap : .setCap ∉ exempt → ∀ d port cap s, P s → (port = .system → s.mode = .active) → P (storeCap d port cap s)
  hint : .postureHint ∉ exempt → ∀ hint s, P s →
    (∀ h, hint = some h → h.origin = .system → s.mode = .active ∧ h.place.lessRestrictive s.committed = false) →
    P (placeHint hint s)
  force : ∀ l level s, P s → P (endEvent (setLineRecord l { s.lines.get l with manual := level } s))
  activate : .activate ∉ exempt → ∀ s, P s → s.mode = .safe → (∀ r ∈ s.faults, r.severity ≠ .fatal) → P (becomeActive s)
  deactivate : .deactivate ∉ exempt → ∀ s, P s → s.mode = .active → P (endEvent (leaveActive s))

/-- A served body is the owner's, for a request of the kind's shape. -/
theorem served_eq_some {α : Type} {shape : List Byte → Option α} {owner : α → State → State × Reply} {body : List Byte}
    {s : State} {done : State × Reply} :
    served shape owner body s = some done ↔ ∃ r, shape body = some r ∧ owner r s = done :=
  Option.map_eq_some_iff

/-- A kind that is taken in SAFE only has been admitted there. -/
theorem Admitted.mode_safe {kind : Kind} {port : Port} {s : State} (h : Admitted kind port s)
    (named : modeNamed kind port = some .safe) : s.mode = .safe := by
  have allowed := h.2
  rw [modeAllows, named] at allowed
  exact (beq_iff_eq.mp allowed).symm

/-- A kind that is taken on Port S in ACTIVE only has been admitted there. -/
theorem Admitted.mode_active {kind : Kind} {port : Port} {s : State} (h : Admitted kind port s)
    (named : modeNamed kind .system = some .active) (system : port = .system) : s.mode = .active := by
  subst system
  have allowed := h.2
  rw [modeAllows, named] at allowed
  exact (beq_iff_eq.mp allowed).symm

section

variable {exempt : List Kind} {Pre P : State → Prop} (k : KeptByRequests exempt Pre P) {s : State}

include k

/-- The owners of SET_CHANNEL and SET_POWER_CHANNEL. -/
theorem KeptByRequests.ownSetChannel (pre : Pre s) (h : P s) (r : ChannelRequest) : P (ownSetChannel r s).1 := by
  unfold Machine.ownSetChannel
  split
  · exact h
  · dsimp only
    split
    · exact h
    · split
      · exact h
      · rename_i valid
        exact k.channel _ _ s pre h (Bool.not_eq_false _ ▸ (Bool.not_eq_true' _ ▸ valid))

theorem KeptByRequests.ownSetPowerChannel (h : P s) (r : PowerChannelRequest) : P (ownSetPowerChannel r s).1 := by
  unfold Machine.ownSetPowerChannel
  split
  · exact h
  · split
    · exact h
    · exact k.power _ _ _ _ s h

/-- The owners of the classifier's requests. -/
theorem KeptByRequests.ownPostureHint (taken : Kind.postureHint ∉ exempt) (h : P s) {port : Port}
    (admitted : Admitted .postureHint port s) (code : HintCode) : P (ownPostureHint port code s).1 := by
  have placed := k.hint taken
  unfold Machine.ownPostureHint
  split
  · exact h
  · exact placed _ s h fun _ e origin => by cases e; cases origin
  · exact placed _ s h fun _ e => by cases e
  · split
    · exact h
    · split
      · exact h
      · rename_i free notLess
        exact placed _ s h fun _ e _ => by
          cases e
          exact ⟨admitted.mode_active rfl rfl, by simpa using notLess⟩
  · split
    · exact h
    · exact placed _ s h fun _ e => by cases e

/-- The owner of ACTIVATE. -/
theorem KeptByRequests.ownActivate (taken : Kind.activate ∉ exempt) (h : P s) (u : Unit) : P (ownActivate u s).1 := by
  cases mode : s.mode with
  | active => rwa [ownActivate_active mode]
  | safe =>
    rw [ownActivate_safe mode]
    split
    · exact h
    · rename_i calm
      split
      · exact h
      · split
        · exact h
        · exact k.activate taken s h mode fun r hr fatal => calm ⟨r, hr, fatal⟩

/-- What the owners keep, every served request keeps. -/
theorem KeptByRequests.serve_keeps (pre : Pre s) (h : P s) {kind : Kind} {port : Port} {body : List Byte}
    {done : State × Reply} (taken : kind ∉ exempt) (admitted : Admitted kind port s)
    (e : serve kind port body s = some done) : P done.1 := by
  cases kind <;> simp only [serve] at e <;> obtain ⟨r, -, rfl⟩ := served_eq_some.mp e
  case identify | readStatus | readGrants | readFaults | readNotices => exact h
  case readDomain =>
    unfold ownReadDomain
    split
    · exact h
    · split <;> exact h
  case readZone => unfold ownReadZone; split <;> exact h
  case readChannel => unfold ownReadChannel; split <;> split <;> exact h
  case clearNotices => exact k.clearNotices taken _ _ _ s h
  case setNoticeMask => exact k.setNoticeMask taken _ _ _ s h
  case clearFaults => exact k.clearFaults taken r s h
  case setChannel => exact k.ownSetChannel pre h r
  case setPowerChannel => exact k.ownSetPowerChannel h r
  case setInput =>
    unfold ownSetInput
    split
    · exact h
    · exact k.input taken _ _ s h (admitted.mode_safe rfl)
  case setPostureTiming => exact k.timing _ _ s h
  case setZone =>
    unfold ownSetZone
    split
    · rename_i z sources _ _
      split
      · rename_i valid
        exact k.zone z r sources s h (admitted.mode_safe rfl) valid
      · exact h
    · exact h
  case setLadder =>
    unfold ownSetLadder
    split
    · exact h
    · split
      · rename_i valid
        exact k.ladder _ _ s h valid
      · exact h
  case setProfile =>
    unfold ownSetProfile
    split
    · split
      · rename_i valid
        exact k.profile taken _ _ _ s h valid
      · exact h
    · exact h
  case setSkinLimits =>
    unfold ownSetSkinLimits
    split
    · exact h
    · split
      · rename_i valid
        exact k.skin _ _ s h valid
      · exact h
  case setDomain =>
    unfold ownSetDomain
    split
    · exact h
    · split
      · rename_i valid
        exact k.domain taken _ _ s h (admitted.mode_safe rfl) valid
      · exact h
  case setRouting =>
    unfold ownSetRouting
    split
    · exact h
    · split
      · rename_i valid
        exact k.routing _ _ s h (admitted.mode_safe rfl) valid
      · exact h
  case setSupplyConfig =>
    unfold ownSetSupplyConfig
    split
    · exact k.supplyConfig _ s h (admitted.mode_safe rfl)
    · exact h
  case supplyReport => exact k.report _ s h
  case setCap =>
    unfold ownSetCap
    split
    · exact h
    · exact k.cap taken _ port _ s h (admitted.mode_active rfl)
  case postureHint => exact k.ownPostureHint taken h admitted r
  case forceLine =>
    unfold ownForceLine
    split
    · exact h
    · dsimp only
      split
      · exact h
      · exact k.force _ _ s h
  case activate => exact k.ownActivate taken h r
  case deactivate =>
    unfold ownDeactivate
    split
    · rename_i mode
      exact k.deactivate taken s h mode
    · exact h

end

/-! ## Transactions -/

/-- What a property that does not look at the links makes of a transaction: the owners keep it. -/
theorem KeptByRequests.transaction {exempt : List Kind} {Pre P : State → Prop} (k : KeptByRequests exempt Pre P)
    (blind : ∀ s l, P s → P { s with links := l }) {i : Instr} {s t : State} (transaction : (callOf i).isSome = true)
    (taken : ∀ kind call body, i = requestOf kind call body → kind ∉ exempt) (pre : Pre s) (h : P s)
    (e : exec i s = .next t) : P t := by
  cases parts : requestParts i with
  | some r =>
    obtain ⟨kind, call, body⟩ := r
    obtain rfl := eq_requestOf_of_parts parts
    rw [exec_requestOf] at e
    refine atPort_keeps P call _ s t h (takeWrite_keeps P blind _ _ _ s h fun _ received => ?_) e
    rcases respond_cases kind call.port (Machine.serve kind call.port received) s with
      ⟨status, answered⟩ | ⟨done, admitted, own, answered⟩
    · rw [answered]
      exact blind _ _ h
    · rw [answered]
      exact blind _ _ (k.serve_keeps pre h (taken kind call body rfl) admitted own)
  | none =>
    cases i <;> simp only [exec] at e
    case badFrame => exact atPort_keeps P _ _ s t h (takeWrite_keeps P blind _ _ _ s h fun _ _ => h) e
    case unknown =>
      refine atPort_keeps P _ _ s t h (takeWrite_keeps P blind _ _ _ s h fun _ _ => ?_) e
      split
      · exact blind _ _ h
      · exact h
    case replyRead => exact atPort_keeps P _ _ s t h (blind _ _ h) e
    all_goals simp [callOf, requestParts] at parts transaction

/-! ## Events -/

/-- A property that the events keep, where what came before the event is `Pre`: one field for each event, at the moment at
which it happens. -/
structure KeptByEvents (Pre P : State → Prop) : Prop where
  pre : ∀ n s, Pre s → Pre (elapse n s)
  time : ∀ n s, P s → P (elapse n s)
  interval : ∀ c s, P s → P (requestConversion c
    (setTempRecord c { s.temps.get c with timer := some (Timer.start (s.temps.get c).cfg.interval) } s))
  conversionEnd : ∀ j result s, Pre s → P s → s.converter = some j →
    P (startConversion
      (if j.voided then { s with converter := none } else handleOutcome j result { s with converter := none }))
  sample : ∀ n sample s, Pre s → P s →
    let v := { (s.powers.get n).after sample with timer := Timer.start (s.powers.get n).interval }
    P (deliver n (s.powers.get n) v (reportPower n (s.powers.get n).state v.state (setPowerRecord n v s)))
  trip : ∀ w s, P s → s.watch.state = .timing w → P (supplyTrips s)
  level : ∀ l high s, P s → (s.inputs.get l).pinHigh ≠ high →
    P (levelChange l { s with inputs := s.inputs.set l { s.inputs.get l with pinHigh := high } })
  debounced : ∀ l b s, P s → (s.inputs.get l).debouncing = some b → P (takeLevel l b.tentative s)
  dwell : ∀ w s, P s → s.dwell = some w → P (commitCandidate s)
  zoneWaits : ∀ z s, P s → (s.zones.get z).timer.isSome = true →
    P (setZoneRecord z { s.zones.get z with timer := some (Timer.start (s.zones.get z).cfg.interval) } s)
  zoneUpdate : ∀ z sum s, P s → (s.zones.get z).timer.isSome = true →
    weightedSum (fun c => (s.temps.get c).consumer) (s.zones.get z).cfg.sources = some sum → P (endEvent (updateZone z sum s))
  settled : ∀ d s, P s → P (setCompliance d { s.compliance.get d with settle := none } s)
  sensed : ∀ l high s, P s →
    P (compareLine l .sensed (setLineRecord l
      { s.lines.get l with pinHigh := high, sensed := interpret (s.lines.get l).cfg.polarity high } s))
  sticks : ∀ l w s, P s → (s.lines.get l).window = some w → P (lineSticks l s)

section

variable {Pre P : State → Prop} (k : KeptByEvents Pre P) {s : State}

include k

theorem KeptByEvents.await_pre (w : Timer) (pre : Pre s) : Pre (await w s) := by
  unfold await
  split
  · exact pre
  · exact k.pre _ _ pre

theorem KeptByEvents.await (w : Timer) (h : P s) : P (await w s) := by
  unfold Machine.await
  split
  · exact h
  · exact k.time _ _ h

end

/-- A wait leaves the timers running that run, and the converter converting. -/
theorem await_converter {w : Timer} {j : Conversion} {s : State} (h : s.converter = some j) :
    ∃ timer, (await w s).converter = some { j with timer := timer } := by
  unfold await
  split
  · exact ⟨j.timer, h⟩
  · exact ⟨_, congrArg (Option.map _) h⟩

theorem await_watch {w v : Timer} {s : State} (h : s.watch.state = .timing v) :
    ∃ timer, (await w s).watch.state = .timing timer := by
  unfold await
  split
  · exact ⟨v, h⟩
  · exact ⟨v.elapse w.remaining, by rw [elapse_watch, h]⟩

theorem await_debouncing {w : Timer} {l : InputId} {b : Debounce} {s : State}
    (h : (s.inputs.get l).debouncing = some b) :
    ∃ timer, ((await w s).inputs.get l).debouncing = some { b with timer := timer } := by
  unfold await
  split
  · exact ⟨b.timer, h⟩
  · exact ⟨b.timer.elapse w.remaining, by simp [h]⟩

theorem await_dwell {w v : Timer} {s : State} (h : s.dwell = some v) : ∃ timer, (await w s).dwell = some timer := by
  unfold await
  split
  · exact ⟨v, h⟩
  · exact ⟨v.elapse w.remaining, by simp [h]⟩

theorem await_window {w v : Timer} {l : LineId} {s : State} (h : (s.lines.get l).window = some v) :
    ∃ timer, ((await w s).lines.get l).window = some timer := by
  unfold await
  split
  · exact ⟨v, h⟩
  · exact ⟨v.elapse w.remaining, by simp [h]⟩

theorem await_zoneTimer {w v : Timer} {z : ZoneId} {s : State} (h : (s.zones.get z).timer = some v) :
    ((await w s).zones.get z).timer.isSome = true := by
  unfold await
  split
  · simp [h]
  · simp [h]

/-- What the events keep, every event but RESET keeps. -/
theorem KeptByEvents.event {Pre P : State → Prop} (k : KeptByEvents Pre P) {i : Instr} {s t : State}
    (event : callOf i = none) (running : ¬IsReset i) (pre : Pre s) (h : P s) (e : exec i s = .next t) : P t := by
  cases i <;> simp only [exec] at e
  case reset edge pins lines => exact absurd ⟨edge, pins, lines, rfl⟩ running
  case intervalTimerExpiry c =>
    refine outsideReset_keeps P _ s t h ?_ e
    split
    · exact h
    · exact k.interval c _ (k.await _ h)
  case conversionEnd result =>
    refine outsideReset_keeps P _ s t h ?_ e
    split
    · exact h
    · rename_i j converting
      obtain ⟨timer, still⟩ := await_converter (w := j.timer) converting
      exact k.conversionEnd { j with timer := timer } result _ (k.await_pre _ pre) (k.await _ h) still
  case sampleArrival n sample =>
    exact outsideReset_keeps P _ s t h (k.sample n sample _ (k.await_pre _ pre) (k.await _ h)) e
  case tripTimerExpiry =>
    refine outsideReset_keeps P _ s t h ?_ e
    split
    · rename_i w timing
      obtain ⟨timer, still⟩ := await_watch (w := w) timing
      exact k.trip timer _ (k.await _ h) still
    · exact h
    · exact h
  case inputLevelChange l high =>
    refine outsideReset_keeps P _ s t h ?_ e
    dsimp only
    split
    · exact h
    · rename_i change
      exact k.level l high s h change
  case debounceExpiry l =>
    refine outsideReset_keeps P _ s t h ?_ e
    split
    · exact h
    · rename_i b running
      obtain ⟨timer, still⟩ := await_debouncing (w := b.timer) running
      exact k.debounced l { b with timer := timer } _ (k.await _ h) still
  case dwellExpiry =>
    refine outsideReset_keeps P _ s t h ?_ e
    split
    · exact h
    · rename_i w running
      obtain ⟨timer, still⟩ := await_dwell (w := w) running
      exact k.dwell timer _ (k.await _ h) still
  case zoneUpdate z =>
    refine outsideReset_keeps P _ s t h ?_ e
    split
    · exact h
    · rename_i w running
      have due := k.await w h
      have still := await_zoneTimer (w := w) running
      have restarted := k.zoneWaits z _ due still
      dsimp only
      split
      · exact restarted
      · rename_i sum offered
        refine k.zoneUpdate z sum _ restarted (by simp) ?_
        simpa using offered
  case settleTimerExpiry d =>
    refine outsideReset_keeps P _ s t h ?_ e
    split
    · exact h
    · exact k.settled d _ (k.await _ h)
  case sensedLevelChange l high =>
    refine outsideReset_keeps P _ s t h ?_ e
    dsimp only
    split
    · exact h
    · exact k.sensed l high s h
  case readbackWindowExpiry l =>
    refine outsideReset_keeps P _ s t h ?_ e
    split
    · exact h
    · rename_i w running
      obtain ⟨timer, still⟩ := await_window (w := w) running
      exact k.sticks l timer _ (k.await _ h) still
  all_goals cases event

end Sys2Proof.Machine

/-! # What events do not write: the settings, the links and the strap -/

namespace Sys2Proof.Machine

open Sys2Proof

/-- s without what events write: what stands are the fields that requests set, the links, the strap and the model's own
queue. -/
def State.settings (s : State) : State :=
  { State.reset with
    restFail := s.restFail, enterDwell := s.enterDwell, relaxDwell := s.relaxDwell, profile := s.profile, skin := s.skin
    domains := s.domains, report := s.report, supplyCfg := s.supplyCfg, links := s.links, adrsel := s.adrsel
    inReset := s.inReset, pending := s.pending }

theorem Evented.settings {s t : State} (h : Evented s t) : t.settings = s.settings := h.same State.settings fun _ => rfl

theorem settings_of_dwellOnly {s t : State} (h : t.withoutEvent.withoutDwell = s.withoutEvent.withoutDwell) :
    t.settings = s.settings :=
  same_of_erased (fun u => u.withoutEvent.withoutDwell) State.settings (fun _ => rfl) h

theorem settings_of_watchOnly {s t : State} (h : t.withoutEvent.withoutWatch = s.withoutEvent.withoutWatch) :
    t.settings = s.settings :=
  same_of_erased (fun u => u.withoutEvent.withoutWatch) State.settings (fun _ => rfl) h

theorem takeLevel_settings (l : InputId) (a : Bool) (s : State) : (takeLevel l a s).settings = s.settings :=
  (settings_of_dwellOnly (takeLevel_dwellOnly l a s)).trans rfl

theorem startDebounce_settings (l : InputId) (a : Bool) (s : State) : (startDebounce l a s).settings = s.settings := by
  unfold startDebounce
  dsimp only
  split
  · exact takeLevel_settings l a s
  · rfl

theorem levelChange_settings (l : InputId) (s : State) : (levelChange l s).settings = s.settings := by
  unfold levelChange
  dsimp only
  split
  · rfl
  · exact startDebounce_settings _ _ _

theorem startConversion_settings (s : State) : (startConversion s).settings = s.settings :=
  startConversion_same State.settings (fun _ _ _ => rfl) s

theorem requestConversion_settings (c : TempId) (s : State) : (requestConversion c s).settings = s.settings := by
  unfold requestConversion
  split
  · exact (occur_logged _ _ _ _).evented.settings
  · exact startConversion_settings _

theorem handleOutcome_settings (j : Conversion) (result : RawResult) (s : State) :
    (handleOutcome j result s).settings = s.settings := by
  unfold handleOutcome
  dsimp only
  split <;> exact (changeTemp_evented _ _ _ _).settings

/-- The events leave the settings. -/
theorem settings_keptByEvents (s₀ : State) : KeptByEvents (fun _ => True) (fun s => s.settings = s₀.settings) where
  pre _ _ h := h
  time _ _ h := h
  interval c _ h := (requestConversion_settings c _).trans h
  conversionEnd j result s _ h _ := by
    refine (startConversion_settings _).trans ?_
    split
    · exact h
    · exact (handleOutcome_settings j result _).trans h
  sample n sample s _ h :=
    (settings_of_watchOnly (deliver_watchOnly _ _ _ _)).trans ((reportPower_evented _ _ _ _).settings.trans h)
  trip w s h _ := (supplyTrips_evented s).settings.trans h
  level l high s h _ := (levelChange_settings l _).trans h
  debounced l b s h _ := (takeLevel_settings l _ s).trans h
  dwell w s h _ := (settings_of_dwellOnly (commitCandidate_dwellOnly s)).trans h
  zoneWaits _ _ h _ := h
  zoneUpdate z sum s h _ _ := (endEvent_evented (updateZone_switched z sum s).evented).settings.trans h
  settled _ _ h := h
  sensed l high s h := (compareLine_ended _ _ _).evented.settings.trans h
  sticks l w s h _ := (lineSticks_evented l s).settings.trans h

/-- No event but RESET writes a setting, a link or the strap. -/
theorem event_settings {i : Instr} {s t : State} (event : callOf i = none) (running : ¬IsReset i)
    (e : exec i s = .next t) : t.settings = s.settings :=
  (settings_keptByEvents s).event event running trivial rfl e

/-! ## The links -/

theorem configureInput_settings (l : InputId) (cfg : InputConfig) (s : State) :
    (configureInput l cfg s).settings = s.settings := by
  unfold configureInput
  dsimp only
  split
  · exact levelChange_settings _ _
  · split
    · split
      · exact startDebounce_settings _ _ _
      · rfl
    · rfl

theorem State.links_of_settings {s t : State} (h : t.settings = s.settings) : t.links = s.links := by
  have := congrArg State.links h
  exact this

/-- What the ports hold, and the two pins that decide whether they answer. -/
def State.bus (s : State) : PerPort Link × Bool × Bool := (s.links, s.adrsel, s.inReset)

theorem State.bus_of_settings {s t : State} (h : t.settings = s.settings) : t.bus = s.bus := by
  have := congrArg State.bus h
  exact this

theorem configureChannel_settings (c : TempId) (cfg : ChannelConfig) (s : State) :
    (configureChannel c cfg s).settings = s.settings := by
  unfold configureChannel
  dsimp only
  split
  · rfl
  · split
    · rfl
    · rfl
    · exact (changeTemp_evented _ _ _ _).settings
    · exact (changeTemp_evented _ _ _ _).settings

theorem configurePower_bus (n : PowerId) (interval hold fail : Nat) (s : State) :
    (configurePower n interval hold fail s).bus = s.bus := by
  unfold configurePower
  dsimp only
  split
  · exact (State.bus_of_settings (restChange_evented _ _).settings).trans rfl
  all_goals rfl

/-- No owner writes a link, the strap or the reset line: the reply is placed behind it. -/
theorem bus_keptByRequests {β : Type} (f : PerPort Link × Bool × Bool → β) (b : β) :
    KeptByRequests [] (fun _ => True) (fun s => f s.bus = b) where
  clearNotices _ _ _ _ _ h := h
  setNoticeMask _ _ _ _ _ h := h
  clearFaults _ _ _ h := h
  channel c cfg s _ h _ := (congrArg f (State.bus_of_settings (configureChannel_settings c cfg s))).trans h
  power n interval hold fail s h := (congrArg f (configurePower_bus n interval hold fail s)).trans h
  input _ l cfg s h _ := (congrArg f (State.bus_of_settings (configureInput_settings l cfg s))).trans h
  timing _ _ _ h := h
  zone _ _ _ s h _ _ := (congrArg f (State.bus_of_settings (configureZone_evented _ _ s).settings)).trans h
  ladder z steps s h _ := (congrArg f (State.bus_of_settings (configureLadder_evented z steps s).settings)).trans h
  profile _ d c e s h _ := (congrArg f (State.bus_of_settings (storeEntry_evented d c e s).settings)).trans h
  skin z limits s h _ := (congrArg f (State.bus_of_settings (storeLimits_evented z limits s).settings)).trans h
  domain _ d r s h _ _ := (congrArg f (State.bus_of_settings (configureDomain_evented d r s).settings)).trans h
  routing l cfg s h _ _ := (congrArg f (State.bus_of_settings (configureLine_evented l cfg s).settings)).trans h
  supplyConfig c s h _ := (congrArg f (State.bus_of_settings (configureSupply_evented c s).settings)).trans h
  report _ _ h :=
    (congrArg f (State.bus_of_settings (endEvent_evented (recomputeShares_offered _).evented).settings)).trans h
  cap _ d port cap s h _ := (congrArg f (State.bus_of_settings (storeCap_evented d port cap s).settings)).trans h
  hint _ hint s h _ := (congrArg f (State.bus_of_settings (placeHint_evented hint s).settings)).trans h
  force _ _ _ h := (congrArg f (State.bus_of_settings (endEvent_ended _).evented.settings)).trans h
  activate _ s h _ _ := (congrArg f (State.bus_of_settings (becomeActive_evented s).settings)).trans h
  deactivate _ s h _ :=
    (congrArg f (State.bus_of_settings (endEvent_evented (leaveActive_fallen s).evented).settings)).trans h

theorem serve_bus {kind : Kind} {port : Port} {body : List Byte} {s : State} {done : State × Reply}
    (admitted : Admitted kind port s) (e : serve kind port body s = some done) : done.1.bus = s.bus :=
  (bus_keptByRequests id s.bus).serve_keeps trivial rfl (List.not_mem_nil) admitted e

theorem serve_links {kind : Kind} {port : Port} {body : List Byte} {s : State} {done : State × Reply}
    (admitted : Admitted kind port s) (e : serve kind port body s = some done) : done.1.links = s.links :=
  congrArg Prod.fst (serve_bus admitted e)

end Sys2Proof.Machine

/-! # The links: buffers and reply slots (R167, R168, R171, R172) -/

namespace Sys2Proof.Machine

open Sys2Proof

/-! ## Reply frames (section 11.2) -/

/-- A reply of at most 249 fields fits the 253 bytes of a reply frame. -/
theorem replyFrame_isReplyFrame (kind : Byte) (r : Reply) (short : r.fields.length ≤ 249) :
    ReplyFrame (replyFrame kind r) := by
  have length : (replyFrame kind r).length = r.fields.length + 4 := by simp [replyFrame]
  have counted : ((replyFrame kind r).getD 1 0).toNat = r.fields.length + 1 := by
    rw [show (replyFrame kind r).getD 1 0 = BitVec.ofNat 8 (r.fields.length + 1) from rfl]
    exact toNat_ofNat_byte (by omega)
  refine ⟨by omega, by omega, by omega, byteSum_frame _ _⟩

theorem length_faultsFields_le (start : Nat) (log : List FaultRecord) : (faultsFields start log).length ≤ 70 := by
  have few : ((log.drop start).take 4).length ≤ 4 := List.length_take_le _ _
  simp only [faultsFields, List.length_append, length_leBytes, length_flatten_faultFields]
  omega

@[simp] theorem length_hintFields (hint : Option Hint) : (hintFields hint).length = 2 := by
  cases hint <;> simp [hintFields]

@[simp] theorem length_lineStatus (l : ThrottleLine) : (lineStatus l).length = 4 := by simp [lineStatus]

theorem length_statusFields (s : State) : (statusFields s).length = 61 := by
  unfold statusFields
  simp only [List.length_append, length_leBytes, length_leOption, length_hintFields, length_zoneStatus,
    length_lineStatus]

/-- No reply has more than 129 fields (section 11.9). -/
theorem serve_fields_length {kind : Kind} {port : Port} {body : List Byte} {s : State} {done : State × Reply}
    (e : serve kind port body s = some done) : done.2.fields.length ≤ 129 := by
  cases kind <;> simp only [serve] at e <;> obtain ⟨r, -, rfl⟩ := served_eq_some.mp e
  case identify => simp [identifyFields_eq]
  case readStatus => simp [length_statusFields]
  case readGrants => simp [grantsFields]
  case readDomain =>
    unfold ownReadDomain
    split
    · simp [domainFields]
    · split <;> simp [restFields, Reply.bare]
  case readZone =>
    unfold ownReadZone
    split <;> simp [zoneFields, Reply.bare]
  case readChannel =>
    unfold ownReadChannel
    split <;> split <;> simp [length_tempFields, length_powerFields, Reply.bare]
  case readFaults => exact (length_faultsFields_le _ _).trans (by decide)
  case readNotices | clearNotices | setNoticeMask =>
    simp [ownReadNotices, ownClearNotices, ownSetNoticeMask, leNotices]
  case clearFaults => simp [ownClearFaults]
  case setChannel =>
    unfold ownSetChannel
    dsimp only
    repeat' split
    all_goals simp [Reply.bare, Reply.taken]
  case setPowerChannel =>
    unfold ownSetPowerChannel
    repeat' split
    all_goals simp [Reply.bare, Reply.taken]
  case setInput =>
    unfold ownSetInput
    split <;> simp [Reply.bare, Reply.taken]
  case setPostureTiming => simp [ownSetPostureTiming, Reply.taken]
  case setZone =>
    unfold ownSetZone
    repeat' split
    all_goals simp [Reply.bare, Reply.taken]
  case setLadder =>
    unfold ownSetLadder
    repeat' split
    all_goals simp [Reply.bare]
  case setProfile =>
    unfold ownSetProfile
    repeat' split
    all_goals simp [Reply.bare]
  case setSkinLimits =>
    unfold ownSetSkinLimits
    repeat' split
    all_goals simp [Reply.bare]
  case setDomain =>
    unfold ownSetDomain
    repeat' split
    all_goals simp [Reply.bare, Reply.taken]
  case setRouting =>
    unfold ownSetRouting
    repeat' split
    all_goals simp [Reply.bare, Reply.taken]
  case setSupplyConfig =>
    unfold ownSetSupplyConfig
    split <;> simp [Reply.bare, Reply.taken]
  case supplyReport => simp [ownSupplyReport, Reply.taken]
  case setCap =>
    unfold ownSetCap
    split <;> simp [Reply.bare, Reply.taken]
  case postureHint =>
    unfold ownPostureHint
    repeat' split
    all_goals simp [Reply.bare]
  case forceLine =>
    unfold ownForceLine
    split <;> simp [Reply.bare]
  case activate =>
    unfold ownActivate
    repeat' split
    all_goals simp
  case deactivate =>
    unfold ownDeactivate
    split <;> simp [Reply.bare]

/-! ## What a transaction does to the links -/

/-- What a transaction leaves at its port's link: the buffer is empty or untouched, and the slot is empty, untouched or
holds a reply frame. -/
def LinkServed (v w : Link) : Prop :=
  (w.buffer = [] ∨ w.buffer = v.buffer) ∧ ∀ bytes, w.slot = some bytes → v.slot = some bytes ∨ ReplyFrame bytes

/-- What a transaction at a port does to the links: the port's own is served, and no other is touched. -/
def ServesPort (port : Port) (s t : State) : Prop :=
  (∀ p, p ≠ port → t.links.get p = s.links.get p) ∧ LinkServed (s.links.get port) (t.links.get port)

theorem ServesPort.refl (port : Port) (s : State) : ServesPort port s s :=
  ⟨fun _ _ => rfl, .inr rfl, fun _ => .inl⟩

theorem ServesPort.of_links {port : Port} {s t : State} {w : Link} (h : t.links = s.links.set port w)
    (served : LinkServed (s.links.get port) w) : ServesPort port s t := by
  refine ⟨fun p other => ?_, ?_⟩
  · rw [h, PerPort.get_set_of_ne _ _ _ _ other]
  · rw [h, PerPort.get_set_self]
    exact served

/-- A placed reply frame serves its port, behind an owner that leaves the links. -/
theorem ServesPort.placed {port : Port} {s u : State} (same : u.links = s.links) {bytes : List Byte}
    (reply : ReplyFrame bytes) : ServesPort port s (place port bytes u) :=
  .of_links (by rw [place_links, same]) ⟨.inl rfl, fun _ e => by cases e; exact .inr reply⟩

theorem ServesPort.answered {port : Port} {s u : State} (same : u.links = s.links) (kind : Kind) {r : Reply}
    (short : r.fields.length ≤ 249) : ServesPort port s (answer port kind r u) :=
  .placed same (replyFrame_isReplyFrame _ _ short)

/-- A write serves its port where the frame that it brings does. -/
theorem takeWrite_servesPort {port : Port} {bytes : List Byte} {taken : Byte → List Byte → State → State} {s : State}
    (own : ∀ kind body, ServesPort port s (taken kind body s)) : ServesPort port s (takeWrite port bytes taken s) := by
  cases framed : frameWellFormed bytes with
  | true =>
    rw [takeWrite_frame _ _ _ _ framed]
    exact own _ _
  | false =>
    rw [takeWrite_refused _ _ _ _ framed]
    exact .of_links rfl
      ⟨.inl rfl, fun _ e => by cases e; exact .inr (replyFrame_isReplyFrame 0x80 (.bare .badFrame) (by decide))⟩

theorem atPort_servesPort {call : Call} {f : Port → State → State} {s t : State}
    (own : ServesPort call.port s (f call.port s)) (e : atPort call f s = .next t) : ServesPort call.port s t :=
  atPort_keeps (ServesPort call.port s) call f s t (.refl _ s) own e

/-- Every transaction serves the port that it calls, and no other (R167, R168, R172). -/
theorem transaction_servesPort {i : Instr} {call : Call} {s t : State} (transaction : callOf i = some call)
    (e : exec i s = .next t) : ServesPort call.port s t := by
  cases parts : requestParts i with
  | some r =>
    obtain ⟨kind, call', body⟩ := r
    obtain rfl := eq_requestOf_of_parts parts
    obtain rfl : call' = call := by
      cases kind <;> exact Option.some.inj transaction
    rw [exec_requestOf] at e
    refine atPort_servesPort (takeWrite_servesPort fun _ received => ?_) e
    rcases respond_cases kind call'.port (serve kind call'.port received) s with
      ⟨status, answered⟩ | ⟨done, admitted, own, answered⟩
    · rw [answered]
      exact .answered rfl kind (by simp [Reply.bare])
    · rw [answered]
      exact .answered (serve_links admitted own) kind ((serve_fields_length own).trans (by decide))
  | none =>
    cases i <;> simp only [exec] at e
    case badFrame =>
      cases transaction
      exact atPort_servesPort (takeWrite_servesPort fun _ _ => .refl _ s) e
    case unknown =>
      cases transaction
      refine atPort_servesPort (takeWrite_servesPort fun received _ => ?_) e
      split
      · exact .placed rfl (replyFrame_isReplyFrame _ _ (by simp [Reply.bare]))
      · exact .refl _ s
    case replyRead =>
      cases transaction
      exact atPort_servesPort (.of_links (w := { s.links.get call.port with slot := none, sent := _ }) rfl
        ⟨.inr rfl, fun _ e => by cases e⟩) e
    all_goals simp [callOf, requestParts] at parts transaction

/-- Settles O47: the address test in front of every transaction, and `transaction_servesPort` behind it. -/
theorem transactionsElsewhereAreIgnored : Obligations.TransactionsElsewhereAreIgnored := by
  intro c call s transaction own
  have address : portAddress call.port s = own := by
    cases port : call.port <;> simp only [portAddress, own, port]
  refine ⟨by rw [State.call, address], fun elsewhere => ?_, fun t e => (transaction_servesPort transaction e).1⟩
  have ignored : s.acknowledges call = false := by
    rw [State.acknowledges, address]
    rcases elsewhere with held | other
    · simp [held]
    · simp [other]
  cases parts : requestParts c with
  | some r =>
    obtain ⟨kind, call', body⟩ := r
    obtain rfl := eq_requestOf_of_parts parts
    obtain rfl : call' = call := by
      cases kind <;> exact Option.some.inj transaction
    rw [exec_requestOf, atPort_ignored _ _ _ ignored]
  | none =>
    cases c <;> simp only [exec]
    case badFrame | unknown | replyRead =>
      cases transaction
      exact atPort_ignored _ _ _ ignored
    all_goals simp [callOf, requestParts] at parts transaction

/-! ## Attention lines (R159) -/

/-- A position of a notice set has its kind (section 11.7). -/
theorem NoticeKind.exists_position {n : Nat} (h : n < 13) : ∃ k : NoticeKind, k.position = n := by
  have all : ∀ n, n < 13 → ∃ k ∈ [NoticeKind.grant, .posture, .hintDropped, .ladder, .trip, .throttle, .fault, .mode,
      .burst, .inLid, .inAcin, .inMotion, .inContact], k.position = n := by decide
  obtain ⟨k, -, position⟩ := all n h
  exact ⟨k, position⟩

/-- The attention line is derived from a pending kind that is not masked (R159). -/
theorem attentionOf_iff (pending mask : NoticeSet) :
    attentionOf pending mask = true ↔ ∃ k, pending.has k = true ∧ mask.has k = false := by
  have bit : ∀ k : NoticeKind, (pending &&& ~~~mask).getLsbD k.position = (pending.has k && !mask.has k) :=
    NoticeSet.has_remove pending mask
  rw [attentionOf_eq, decide_eq_true_iff]
  constructor
  · intro nonzero
    obtain ⟨n, hn, set⟩ : ∃ n, n < 13 ∧ (pending &&& ~~~mask).getLsbD n = true := by
      by_contra none
      push Not at none
      exact nonzero (BitVec.eq_of_getLsbD_eq fun i hi => by simpa using none i hi)
    obtain ⟨k, rfl⟩ := NoticeKind.exists_position hn
    exact ⟨k, by simpa using (bit k).symm.trans set⟩
  · rintro ⟨k, has, free⟩ zero
    have set := bit k
    rw [zero, has, free] at set
    simp at set

/-- Every attention line is derived from its port's two sets. -/
theorem noticesSafe_iff (s : State) :
    s.NoticesSafe ↔ ∀ p, (s.notices.get p).attention = attentionOf (s.notices.get p).pending (s.notices.get p).mask := by
  refine forall_congr' fun p => ?_
  rw [← attentionOf_iff]
  exact Bool.eq_iff_iff.symm

theorem RaisesOnly.noticesSafe {s t : State} (h : RaisesOnly s t) (safe : s.NoticesSafe) : t.NoticesSafe := by
  rw [noticesSafe_iff] at safe ⊢
  unfold RaisesOnly at h
  generalize t.notices = notices at h ⊢
  induction h with
  | refl => exact safe
  | tail _ raised _ =>
    obtain ⟨k, rfl⟩ := raised
    intro p
    rw [PerPort.get_map]
    rfl

theorem setNotices_noticesSafe {s : State} (safe : s.NoticesSafe) (port : Port) (pending mask : NoticeSet) :
    (setNotices port pending mask s).NoticesSafe := by
  rw [noticesSafe_iff] at safe ⊢
  intro p
  simp only [setNotices, PerPort.get_set]
  split
  · rfl
  · exact safe p

theorem exec_noticesSafe {i : Instr} {s t : State} (safe : s.NoticesSafe) (e : exec i s = .next t) : t.NoticesSafe := by
  have congr : ∀ {u v : State}, v.notices = u.notices → u.NoticesSafe → v.NoticesSafe := fun same h p => same ▸ h p
  cases reaches : reachesNotices i with
  | false => exact (exec_raisesOnly i s t reaches e).noticesSafe safe
  | true =>
    cases i <;> simp only [exec] at e
    case reset edge pins lines =>
      have reset : State.reset.NoticesSafe := (noticesSafe_iff _).mpr fun p => by cases p <;> rfl
      exact congr (reset_notices (edge := edge) (pins := pins) (lines := lines) e) reset
    case clearNotices call body =>
      rcases noticeRequest_notices (owner := ownClearNotices) e with same | cleared
      · exact congr same safe
      · exact congr cleared (setNotices_noticesSafe safe _ _ _)
    case setNoticeMask call body =>
      rcases noticeRequest_notices (owner := ownSetNoticeMask) e with same | replaced
      · exact congr same safe
      · exact congr replaced (setNotices_noticesSafe safe _ _ _)
    all_goals cases reaches

/-! ## Every step -/

theorem ServesPort.linksSafe {port : Port} {s t : State} (h : ServesPort port s t) (safe : s.LinksSafe) :
    t.LinksSafe := by
  obtain ⟨others, buffer, slot⟩ := h
  intro p
  by_cases own : p = port
  · subst own
    obtain ⟨empty, reply⟩ := safe p
    exact ⟨buffer.elim id fun same => same.trans empty, fun bytes e => (slot bytes e).elim (reply bytes) id⟩
  · rw [others p own]
    exact safe p

theorem exec_linksSafe {i : Instr} {s t : State} (safe : s.LinksSafe) (e : exec i s = .next t) : t.LinksSafe := by
  cases transaction : callOf i with
  | some call => exact (transaction_servesPort transaction e).linksSafe safe
  | none =>
    by_cases reset : IsReset i
    · obtain ⟨edge, pins, lines, rfl⟩ := reset
      have empty : t.links = State.reset.links := by cases edge <;> cases e <;> rfl
      intro p
      rw [empty]
      cases p <;> exact ⟨rfl, fun _ h => by cases h⟩
    · intro p
      rw [State.links_of_settings (event_settings transaction reset e)]
      exact safe p

/-- Settles O60: raises derive the attention line again, and a transaction serves its port's link. -/
theorem everyStepKeepsPortsAndLinks : Obligations.EveryStepKeepsPortsAndLinks := fun _ _ e =>
  ⟨fun safe => step_keeps (P := State.NoticesSafe) (fun _ _ h => h) (fun _ h => h) (fun _ _ _ => exec_noticesSafe) _ _
      safe e,
    fun safe => step_keeps (P := State.LinksSafe) (fun _ _ h => h) (fun _ h => h) (fun _ _ _ => exec_linksSafe) _ _
      safe e⟩

end Sys2Proof.Machine

/-! # Steps, time and reset -/

namespace Sys2Proof.Machine

open Sys2Proof

/-- Settles O1: the step's case of a command waiting. -/
theorem stepRunsFrontCommand : Obligations.StepRunsFrontCommand := by
  intro s c rest waiting
  unfold step
  rw [waiting]

/-! ## Time (log 2, log 3) -/

theorem due_elapse_remaining (w : Timer) : (w.elapse w.remaining).due = true :=
  decide_eq_true (show w.duration ≤ w.elapsed + (w.duration - w.elapsed) by omega)

/-- One millisecond more of uptime wraps behind 4,294,967,294. -/
theorem uptimeAfter_one (uptime : Nat) :
    uptimeAfter 1 uptime = if uptime % 4294967295 = 4294967294 then 0 else uptime % 4294967295 + 1 := by
  simp only [uptimeAfter, Config.uptimeModulus]
  split <;> omega

/-- With no command waiting a step is one millisecond. -/
theorem step_of_idle {s : State} (running : s.inReset = false) (idle : s.pending = []) :
    step s = .next (elapse 1 s) := by
  unfold step
  rw [idle]
  exact outsideReset_running _ s running

/-- An expiry whose timer is idle does not happen. -/
theorem exec_idle {c : Instr} {s : State} (idle : expiryTimer s c = some none) : exec c s = .next s := by
  have still : ∀ f : State → State, f s = s → outsideReset f s = .next s := by
    intro f same
    unfold outsideReset
    rw [same, ite_self]
  cases c <;> simp only [expiryTimer, Option.some.injEq, Option.map_eq_none_iff, reduceCtorEq] at idle <;>
    simp only [exec] <;> refine still _ ?_
  case tripTimerExpiry =>
    cases state : s.watch.state with
    | timing w => rw [state] at idle; cases idle
    | clear => rfl
    | tripped => rfl
  all_goals rw [idle]

/-- What is left of an expiry's duration may pass first (log 3). -/
theorem exec_elapse_remaining {c : Instr} {s : State} {w : Timer} (running : s.inReset = false)
    (timer : expiryTimer s c = some (some w)) (waits : w.due = false) :
    exec c s = exec c (elapse w.remaining s) := by
  have early := await_of_not_due w s waits
  have late := await_of_due (w.elapse w.remaining) (elapse w.remaining s) (due_elapse_remaining w)
  cases c <;> simp only [expiryTimer, Option.some.injEq, Option.map_eq_some_iff, reduceCtorEq] at timer <;>
    simp only [exec, execIntervalTimerExpiry, execConversionEnd, execSampleArrival, execDebounceExpiry, execDwellExpiry,
      execZoneUpdate, execSettleTimerExpiry, execTripTimerExpiry, execReadbackWindowExpiry] <;>
    rw [outsideReset_running _ _ running, outsideReset_running _ _ (show (elapse _ s).inReset = false from running)]
  case intervalTimerExpiry id =>
    simp only [elapse_temps, PerTemp.get_map, timer, Option.map_some, early, late]
  case conversionEnd result =>
    obtain ⟨j, converting, rfl⟩ := timer
    simp only [elapse_converter, converting, Option.map_some, early, late]
    rfl
  case sampleArrival n sample =>
    subst timer
    simp only [elapse_powers, PerPower.get_map, early, late]
  case debounceExpiry l =>
    obtain ⟨d, debouncing, rfl⟩ := timer
    simp only [elapse_inputs, PerInput.get_map, debouncing, Option.map_some, early, late]
  case dwellExpiry => simp only [elapse_dwell, timer, Option.map_some, early, late]
  case zoneUpdate z => simp only [elapse_zones, PerZone.get_map, timer, Option.map_some, early, late]
  case settleTimerExpiry d => simp only [elapse_compliance, PerDomain.get_map, timer, Option.map_some, early, late]
  case tripTimerExpiry =>
    cases state : s.watch.state with
    | timing t =>
      rw [state] at timer
      obtain rfl : t = w := Option.some.inj (Option.some.inj timer)
      simp only [elapse_watch, state, early, late]
    | clear => rw [state] at timer; cases timer
    | tripped => rw [state] at timer; cases timer
  case readbackWindowExpiry l => simp only [elapse_lines, PerLine.get_map, timer, Option.map_some, early, late]

/-- Settles O2: the tick is `elapse 1`, and an expiry awaits its timer. -/
theorem timePassesWhileNoCommandWaits : Obligations.TimePassesWhileNoCommandWaits := by
  refine ⟨fun s running idle => ?_, fun c s timer running expiry => ⟨?_, ?_⟩⟩
  · rw [step_of_idle running idle, ← uptimeAfter_one]
    cases watch : s.watch with
    | mk state last => cases state <;> simp only [elapse, watch] <;> rfl
  · rintro rfl
    exact exec_idle expiry
  · rintro w rfl waits
    exact exec_elapse_remaining running expiry waits

/-! ## Reset (log 5) -/

/-- Settles O45: what the end of reset leaves, field by field, for each level found at the throttle pins. -/
theorem resetGivesTheResetValues : Obligations.ResetGivesTheResetValues := by
  intro adrsel pins throttle s
  obtain ⟨thr0, thr1, thr2, thr3⟩ := throttle
  cases thr0 <;> cases thr1 <;> cases thr2 <;> cases thr3 <;> rfl

/-- While RST_N is low no command but a reset has an effect (R128, R167). -/
theorem exec_heldInReset {c : Instr} {s : State} (held : s.inReset = true) (other : ¬IsReset c) :
    exec c s = .next s := by
  have ignored : ∀ call, s.acknowledges call = false := fun call => by simp [State.acknowledges, held]
  cases parts : requestParts c with
  | some r =>
    obtain ⟨kind, call, body⟩ := r
    obtain rfl := eq_requestOf_of_parts parts
    rw [exec_requestOf, atPort_ignored _ _ _ (ignored call)]
  | none =>
    cases c <;> simp only [exec]
    case reset edge pins lines => exact absurd ⟨edge, pins, lines, rfl⟩ other
    case badFrame | unknown | replyRead => exact atPort_ignored _ _ _ (ignored _)
    case intervalTimerExpiry | conversionEnd | sampleArrival | tripTimerExpiry | inputLevelChange | debounceExpiry |
        dwellExpiry | zoneUpdate | settleTimerExpiry | sensedLevelChange | readbackWindowExpiry =>
      exact outsideReset_inReset _ s held
    all_goals cases parts

/-- Only a reset moves the reset line. -/
theorem exec_inReset {i : Instr} {s t : State} (other : ¬IsReset i) (e : exec i s = .next t) :
    t.inReset = s.inReset := by
  cases transaction : callOf i with
  | some call =>
    exact (bus_keptByRequests (fun bus => bus.2.2) s.inReset).transaction (fun _ _ h => h) (by simp [transaction])
      (fun _ _ _ _ => List.not_mem_nil) trivial rfl e
  | none =>
    have same := congrArg (fun bus => bus.2.2) (State.bus_of_settings (event_settings transaction other e))
    exact same

theorem exec_resetSafe {i : Instr} {s t : State} (safe : s.ResetSafe) (e : exec i s = .next t) : t.ResetSafe := by
  by_cases reset : IsReset i
  · obtain ⟨edge, pins, lines, rfl⟩ := reset
    cases edge <;> cases e
    · exact fun _ => rfl
    · exact fun held => by cases held
  · cases held : s.inReset with
    | true =>
      rw [exec_heldInReset held reset] at e
      cases e
      exact safe
    | false =>
      intro low
      rw [exec_inReset reset e, held] at low
      cases low

theorem resetSafe_reset : State.reset.ResetSafe := fun held => by cases held

/-- Settles O46: the reset line is looked at first by every command, and only a reset moves it. -/
theorem resetHoldsThePart : Obligations.ResetHoldsThePart := by
  refine ⟨fun _ _ _ => rfl, fun _ _ held other => exec_heldInReset held other, fun s held idle => ?_, fun _ _ => rfl,
    fun p s => ?_, fun s t safe e => ?_⟩
  · unfold step
    rw [idle]
    exact outsideReset_inReset _ s held
  · simp [attentionPulled]
  · unfold step at e
    split at e
    · refine fun low => ?_
      cases held : s.inReset with
      | true =>
        rw [outsideReset_inReset _ s held] at e
        cases e
        exact safe low
      | false =>
        rw [outsideReset_running _ s held] at e
        cases e
        exact absurd (held.symm.trans low) (by decide)
    · rename_i rest waiting
      refine exec_resetSafe (s := { s with pending := rest }) (fun held => ?_) e
      exact congrArg (fun u : State => { u with pending := rest }) (safe held)

end Sys2Proof.Machine

/-! # Write transactions: bytes, frames, decoding (R168, R169, R171) -/

namespace Sys2Proof.Machine

open Sys2Proof

/-! ## The frame test -/

theorem byteSum_eq_zero_iff (bytes : List Byte) : byteSum bytes = 0 ↔ (bytes.map BitVec.toNat).sum % 256 = 0 := by
  rw [← toNat_byteSum]
  exact ⟨fun h => by rw [h]; rfl, fun h => BitVec.eq_of_toNat_eq h⟩

/-- The four tests of R168. -/
theorem frameWellFormed_iff (bytes : List Byte) :
    frameWellFormed bytes = true ↔
      3 ≤ bytes.length ∧ bytes.length ≤ 63 ∧ (bytes.getD 1 0).toNat ≤ 60 ∧
        bytes.length = (bytes.getD 1 0).toNat + 3 ∧ (bytes.map BitVec.toNat).sum % 256 = 0 := by
  rw [← byteSum_eq_zero_iff]
  match bytes with
  | [] | [_] => simp [frameWellFormed]
  | kind :: len :: rest =>
    simp [frameWellFormed, Config.frameBytesMax, Config.requestBodyMax, and_assoc]

/-- A well-formed frame is the frame of its kind byte and its body. -/
theorem frame_of_wellFormed {bytes : List Byte} (framed : frameWellFormed bytes = true) :
    frame (bytes.headD 0) (frameBody bytes) = bytes ∧ (frameBody bytes).length ≤ 60 := by
  obtain ⟨least, -, few, counted, -⟩ := (frameWellFormed_iff bytes).mp framed
  have sum : byteSum bytes = 0 := by
    obtain ⟨-, -, -, -, sum⟩ := (frameWellFormed_iff bytes).mp framed
    exact (byteSum_eq_zero_iff bytes).mpr sum
  match bytes with
  | kind :: len :: rest =>
    obtain rfl | ⟨body, check, rfl⟩ := rest.eq_nil_or_concat'
    · simp at least
    · have length : body.length = len.toNat := by simpa using counted
      have inner : frameBody (kind :: len :: (body ++ [check])) = body := by simp [frameBody]
      have lengthByte : BitVec.ofNat 8 body.length = len := by rw [length, BitVec.ofNat_toNat, BitVec.setWidth_eq]
      have checkByte : -(byteSum (kind :: len :: body)) = check := by
        rw [show kind :: len :: (body ++ [check]) = (kind :: len :: body) ++ [check] from rfl, byteSum_append] at sum
        rw [neg_eq_iff_add_eq_zero, ← sum]
        simp [byteSum]
      rw [inner]
      refine ⟨?_, by simp_all⟩
      rw [frame, List.headD_cons, lengthByte, checkByte]
      rfl

/-! ## Decoding (section 11.6) -/

/-- A code of the catalogue is the code of its kind. -/
theorem kindCode_of_kindOfCode {code : Byte} {kind : Kind} (h : kindOfCode code = some kind) :
    kindCode kind = code := by
  have named : ∀ n : Byte, code.toNat = n.toNat → n = code := fun n same => (BitVec.eq_of_toNat_eq same).symm
  unfold kindOfCode at h
  split at h
  case h_29 => cases h
  all_goals
    rename_i same
    obtain rfl := Option.some.inj h
    exact named _ same

theorem kindOfCode_eq_none_iff (code : Byte) : kindOfCode code = none ↔ ∀ k, kindCode k ≠ code := by
  constructor
  · rintro none k rfl
    rw [kindOfCode_kindCode] at none
    cases none
  · intro other
    by_contra some
    obtain ⟨k, known⟩ := Option.ne_none_iff_exists'.mp some
    exact other k (kindCode_of_kindOfCode known)

theorem encodeWrite_requestOf (kind : Kind) (call : Call) (body : List Byte) :
    encodeWrite (requestOf kind call body) = some (call, frame (kindCode kind) body) := by cases kind <;> rfl

theorem wellFormed_requestOf (kind : Kind) (call : Call) (body : List Byte) :
    (requestOf kind call body).wellFormed = decide (body.length ≤ 60) := by cases kind <;> rfl

/-- A command that a write transaction makes is a BAD_FRAME, an UNKNOWN or a request. -/
theorem encodeWrite_cases {i : Instr} {call : Call} {bytes : List Byte} (h : encodeWrite i = some (call, bytes)) :
    i = .badFrame call bytes ∨ (∃ kind body, i = .unknown call kind body ∧ bytes = frame kind body) ∨
      ∃ kind body, i = requestOf kind call body ∧ bytes = frame (kindCode kind) body := by
  cases parts : requestParts i with
  | some r =>
    obtain ⟨kind, call', body⟩ := r
    obtain rfl := eq_requestOf_of_parts parts
    rw [encodeWrite_requestOf] at h
    cases h
    exact .inr (.inr ⟨kind, body, rfl, rfl⟩)
  | none =>
    cases i
    case badFrame call' bytes' => cases h; exact .inl rfl
    case unknown call' kind body => cases h; exact .inr (.inl ⟨kind, body, rfl, rfl⟩)
    all_goals simp [encodeWrite, requestParts] at h parts

theorem decodeWrite_frame_known {kind : Kind} {call : Call} {body : List Byte} (short : body.length ≤ 60) :
    decodeWrite call (frame (kindCode kind) body) = requestOf kind call body := by
  rw [decodeWrite, if_pos (frameWellFormed_frame _ _ short)]
  simp only [headD_frame, kindOfCode_kindCode, frameBody_frame]

theorem decodeWrite_frame_unknown {kind : Byte} {call : Call} {body : List Byte} (short : body.length ≤ 60)
    (other : kindOfCode kind = none) : decodeWrite call (frame kind body) = .unknown call kind body := by
  rw [decodeWrite, if_pos (frameWellFormed_frame _ _ short)]
  simp only [headD_frame, other, frameBody_frame]

theorem decodeWrite_malformed {call : Call} {bytes : List Byte} (h : frameWellFormed bytes = false) :
    decodeWrite call bytes = .badFrame call bytes := by
  rw [decodeWrite, h, if_neg Bool.false_ne_true]

/-- Settles O4: a well-formed frame is the frame of its kind byte and body, and a kind has one code. -/
theorem decodeAndEncodeAgree : Obligations.DecodeAndEncodeAgree := by
  refine ⟨fun i call bytes sound encoded => ?_, fun call bytes => ?_⟩
  · rcases encodeWrite_cases encoded with rfl | ⟨kind, body, rfl, rfl⟩ | ⟨kind, body, rfl, rfl⟩
    · exact decodeWrite_malformed (by simpa [Instr.wellFormed] using sound)
    · have parts : kindOfCode kind = none ∧ body.length ≤ 60 := by
        simpa [Instr.wellFormed, Config.requestBodyMax] using sound
      exact decodeWrite_frame_unknown parts.2 parts.1
    · rw [wellFormed_requestOf, decide_eq_true_iff] at sound
      exact decodeWrite_frame_known sound
  · cases framed : frameWellFormed bytes with
    | false =>
      rw [decodeWrite_malformed framed]
      exact ⟨by simp [Instr.wellFormed, framed], rfl⟩
    | true =>
      obtain ⟨same, short⟩ := frame_of_wellFormed framed
      rw [← same]
      cases known : kindOfCode (bytes.headD 0) with
      | none =>
        rw [decodeWrite_frame_unknown short known]
        exact ⟨by rw [Instr.wellFormed, known]; simpa [Config.requestBodyMax] using short, rfl⟩
      | some kind =>
        rw [← kindCode_of_kindOfCode known, decodeWrite_frame_known short]
        exact ⟨by rw [wellFormed_requestOf, decide_eq_true short], encodeWrite_requestOf _ _ _⟩

/-! ## Writes that are answered only -/

/-- A command that a write transaction makes takes that write. -/
theorem exec_encoded {i : Instr} {call : Call} {bytes : List Byte} (h : encodeWrite i = some (call, bytes)) :
    ∃ taken : Port → Byte → List Byte → State → State,
      ∀ s, exec i s = atPort call (fun port => takeWrite port bytes (taken port)) s := by
  rcases encodeWrite_cases h with rfl | ⟨kind, body, rfl, rfl⟩ | ⟨kind, body, rfl, rfl⟩
  · exact ⟨_, fun s => by simp only [exec]; rfl⟩
  · exact ⟨_, fun s => by simp only [exec]; rfl⟩
  · exact ⟨_, exec_requestOf kind call body⟩

/-- A transaction that does nothing at its port does nothing. -/
theorem atPort_still {call : Call} {f : Port → State → State} {s : State} (still : ∀ port, f port s = s) :
    atPort call f s = .next s := by
  rw [atPort, still, ite_self]

/-- The reply to a kind outside the catalogue echoes the kind byte where a reply kind can (R171). -/
theorem replyFrame_unknown (kind : Byte) :
    replyFrame (replyKind kind) (.bare .unknown) =
      if kind.toNat < 128 then [kind + 0x80, 0x01, 0x03, 0x7C - kind] else [0x80, 0x01, 0x03, 0x7C] := by
  have bytes : ∀ k : Byte, replyFrame k (.bare .unknown) = [k, 0x01, 0x03, -(k + 4)] := fun _ => rfl
  rw [bytes, replyKind]
  split
  · rw [show -(kind + 0x80 + 4) = 0x7C - kind by bv_omega]
  · rfl

/-- Settles O3: what a write leaves in the buffer, the frame test, and the replies of BAD_FRAME and UNKNOWN. -/
theorem malformedWritesAreAnsweredOnly : Obligations.MalformedWritesAreAnsweredOnly := by
  unfold Obligations.MalformedWritesAreAnsweredOnly
  intro framed
  have test : ∀ bytes, framed bytes ↔ frameWellFormed bytes = true := fun bytes => (frameWellFormed_iff bytes).symm
  simp only [test, Bool.not_eq_true]
  refine ⟨fun v bytes => ⟨receiveAll_eq v bytes, fun k inside => byteAcknowledged_iff v bytes k inside, ?_⟩,
    fun call bytes => ⟨?_, decodeWrite_malformed⟩, ?_, ?_, ?_, ?_⟩
  · rw [holdsFrame_receiveAll]
  · intro bad
    by_contra good
    rw [Bool.not_eq_false] at good
    obtain ⟨sound, -⟩ := decodeAndEncodeAgree.2 call bytes
    rw [bad] at sound
    simp [Instr.wellFormed, good] at sound
  · intro c port bytes s running encoded malformed
    obtain ⟨taken, eq⟩ := exec_encoded encoded
    rw [eq, atPort_call _ _ _ running, takeWrite_refused _ _ _ _ malformed]
    rfl
  · intro port kind body s running short other
    rw [exec, execUnknown, atPort_call _ _ _ running, takeWrite_frame _ _ _ _ (frameWellFormed_frame _ _ short),
      headD_frame, (kindOfCode_eq_none_iff kind).mpr other, ← replyFrame_unknown]
    rfl
  · intro call bytes s good
    rw [exec, execBadFrame, atPort_still fun port => takeWrite_frame port _ _ _ good]
  · intro call k body s short
    rw [exec, execUnknown, atPort_still fun port => ?_]
    rw [takeWrite_frame _ _ _ _ (frameWellFormed_frame _ _ short), headD_frame, kindOfCode_kindCode]

end Sys2Proof.Machine

/-! # Reply reads, the snapshot, the settle timer, and what holds after reset -/

namespace Sys2Proof.Machine

open Sys2Proof

/-! ## Reply reads (R172) -/

theorem length_sentBytes (content : List Byte) (clocked : Nat) : (sentBytes content clocked).length = clocked := by
  rw [sentBytes, List.length_append, List.length_take, List.length_replicate]
  omega

/-- What is sent is the frame in order, and 0xFF behind it. -/
theorem getD_sentBytes {content : List Byte} {clocked k : Nat} (inside : k < clocked) :
    (sentBytes content clocked).getD k 0 = content.getD k 0xFF := by
  rw [sentBytes]
  by_cases framed : k < content.length
  · rw [List.getD_append _ _ _ _ (by rw [List.length_take]; omega), List.getD_eq_getElem _ _ framed,
      List.getD_eq_getElem _ _ (by rw [List.length_take]; omega), List.getElem_take]
  · rw [List.getD_append_right _ _ _ _ (by rw [List.length_take]; omega), List.getD_replicate _ (by
      rw [List.length_take]; omega), List.getD_eq_default _ _ (by omega)]

/-- Settles O5: the slot's frame, or NONE, and the padding behind it. -/
theorem replyReadSendsAndEmptiesTheSlot : Obligations.ReplyReadSendsAndEmptiesTheSlot := by
  intro port clocked s running
  refine ⟨_, ?_, length_sentBytes ((s.links.get port).slot.getD noneFrame) clocked, fun k inside => ?_⟩
  · rw [exec, execReplyRead, atPort_call _ _ _ running]
    rfl
  · exact getD_sentBytes inside

/-! ## READ_STATUS (R163, section 11.9) -/

@[simp] theorem Mode.code_mod (m : Mode) : m.code % 256 = m.code := by cases m <;> rfl

@[simp] theorem Posture.code_mod (p : Posture) : p.code % 256 = p.code := by cases p <;> rfl

@[simp] theorem Column.number_mod (c : Column) : c.number % 256 = c.number := by cases c <;> rfl

@[simp] theorem LineState.code_mod (v : LineState) : v.code % 256 = v.code := by cases v <;> rfl

@[simp] theorem Cause.code_mod (v : Cause) : v.code % 256 = v.code := by cases v <;> rfl

@[simp] theorem PowerSource.code_mod (v : PowerSource) : v.code % 256 = v.code := by cases v <;> rfl

@[simp] theorem u8_hintFields_posture (hint : Option Hint) :
    u8 (hintFields hint) 0 = hint.elim 0xFF fun h => h.place.posture.code := by
  cases hint with
  | none => rfl
  | some h => simp [hintFields]

@[simp] theorem u8_hintFields_origin (hint : Option Hint) :
    u8 (hintFields hint) 1 = hint.elim 0xFF fun h => h.origin.number := by
  cases hint with
  | none => rfl
  | some h => cases origin : h.origin <;> simp [hintFields, origin, Port.number]

/-- Settles O9: the owner answers with the fields of section 11.9, which read back part by part. -/
theorem readStatusReportsTheSnapshot : Obligations.ReadStatusReportsTheSnapshot := by
  intro port s running
  refine ⟨statusFields s, ?taken, length_statusFields s, ?mode, ?committed, ?candidate, ?hint, ?effective,
    fun l => ?input, ?column, fun z => ?zone, fun l => ?line, ?source, ?available, ?pool, ?severity, ?uptime⟩
  case taken =>
    exact request_taken (owner := fun _ _ t => (t, ⟨.ok, statusFields t⟩)) running (admitted_everywhere rfl rfl)
      (by simp) rfl
  all_goals unfold statusFields
  case candidate => cases candidate : s.candidate <;> simp
  case hint => cases hint : s.hint <;> simp
  case input => cases l <;> simp [InputId.number, PerInput.get]
  case zone => cases z <;> simp [zoneStatus, ZoneId.number, PerZone.get] <;> split <;> simp [*]
  case line => cases l <;> simp [lineStatus, LineId.number, PerLine.get]
  all_goals simp [u32_leBytes]

/-! ## SETTLE_TIMER_EXPIRY (R122) -/

/-- Settles O31: the event writes the timer only. -/
theorem settleTimerGoesIdle : Obligations.SettleTimerGoesIdle := by
  intro d w s running settling due
  simp only [exec, execSettleTimerExpiry, outsideReset_running _ s running, settling, await_of_due w s due]
  rfl

/-! ## What holds after reset -/

theorem temperaturesSafe_reset : State.reset.TemperaturesSafe := by
  refine ⟨fun c => ?_, fun z => ?_⟩
  · cases c <;> simp [State.reset, PerTemp.get, resetTemp, InRange]
  · cases z <;> simp [State.reset, PerZone.get, resetZone, weightTotal, InRange]

/-- No level is the undetermined state of a line after reset. -/
theorem undetermined_ne_ofLevel (level : Bool) : LineState.undetermined ≠ LineState.ofLevel level := by
  cases level <;> decide

theorem inputsSafe_reset (pins : PerInput Bool) : State.InputsSafe { State.reset with inputs := resetInputs pins } := by
  intro l
  cases l <;> simp [PerInput.get, resetInputs, resetInput, InputLine.Safe, interpret, undetermined_ne_ofLevel]

theorem entriesSafe_reset : State.reset.EntriesSafe := by
  intro d c
  cases d <;> cases c <;> simp [State.reset, PerDomain.get, PerColumn.get, resetProfile, resetDomain]

theorem grantsSafe_reset : State.reset.GrantsSafe := by
  refine ⟨rfl, fun d => ?_⟩
  cases d <;> exact ⟨rfl, rfl⟩

theorem logSafe_reset : State.reset.LogSafe :=
  ⟨fun _ h => (List.not_mem_nil h).elim, List.nodup_nil, Nat.zero_le _, rfl, fun h => by cases h⟩

theorem not_presentIn_nil (kind : FaultKind) (subject : Nat) : ¬presentIn [] kind subject := by
  rintro ⟨_, held, -⟩
  exact List.not_mem_nil held

/-- After reset the log is empty, and no owner is in a state that it reports. -/
theorem conditionsSafe_reset (lines : PerLine Bool) :
    State.ConditionsSafe { State.reset with lines := resetLines lines } :=
  ⟨fun c => iff_of_false (not_presentIn_nil _ _) fun failed => (by cases c <;> cases failed),
    fun n => iff_of_false (not_presentIn_nil _ _) fun failed => (by cases n <;> cases failed),
    fun z => iff_of_false (not_presentIn_nil _ _) fun tripped => (by cases z <;> cases tripped),
    fun z => iff_of_false (not_presentIn_nil _ _) fun blind => (by cases z <;> cases blind),
    fun d => iff_of_false (not_presentIn_nil _ _) fun excess => (by cases d <;> cases excess),
    fun l => iff_of_false (not_presentIn_nil _ _) fun stuck => (by cases l <;> cases stuck),
    iff_of_false (not_presentIn_nil _ _) fun tripped => by cases tripped⟩

/-- Settles O50: each block's values after reset, and the lines with all pins low. -/
theorem resetMeetsTheInvariants : Obligations.ResetMeetsTheInvariants :=
  ⟨queueSafe_reset, channelsSafe_reset, temperaturesSafe_reset, inputsSafe_reset _, ⟨rfl, by decide, rfl, rfl⟩,
    ⟨fun _ => ⟨fun d => by cases d <;> rfl, rfl⟩, fun _ h => by cases h⟩, entriesSafe_reset, zonesSafe_reset,
    accountsSafe_reset, grantsSafe_reset, resetLines_linesSafe _, logSafe_reset, conditionsSafe_reset _,
    (noticesSafe_iff _).mpr fun p => by cases p <;> rfl,
    fun p => by cases p <;> exact ⟨rfl, fun _ h => by cases h⟩, resetSafe_reset⟩

end Sys2Proof.Machine

/-! # The moves: the changes that reach modes, conditions, notices and the log -/

namespace Sys2Proof.Machine

open Sys2Proof

/-- Nothing that a condition, a notice or the mode depends on differs: a state's conditions' owners, drives, positions,
account states, debounced states, readings, estimates, hint, effective posture, grants, mode, log and notices. -/
structure SameSeen (s t : State) : Prop where
  mode : t.mode = s.mode
  hint : t.hint = s.hint
  effective : t.effective = s.effective
  grants : t.grants = s.grants
  faults : t.faults = s.faults
  notices : t.notices = s.notices
  temps : ∀ c, (t.temps.get c).state = .failed ↔ (s.temps.get c).state = .failed
  powers : ∀ n, (t.powers.get n).state = .failed ↔ (s.powers.get n).state = .failed
  tripped : ∀ z, (t.zones.get z).state = .tripped ↔ (s.zones.get z).state = .tripped
  position : ∀ z, (t.zones.get z).position = (s.zones.get z).position
  blind : ∀ z, (t.zones.get z).blind = (s.zones.get z).blind
  accounts : ∀ d, (t.accounts.get d).state = (s.accounts.get d).state
  compliance : ∀ d, (t.compliance.get d).state = (s.compliance.get d).state
  watch : t.watch.state = .tripped ↔ s.watch.state = .tripped
  drive : ∀ l, (t.lines.get l).drive = (s.lines.get l).drive
  stuck : ∀ l, (t.lines.get l).stuck = (s.lines.get l).stuck
  inputs : ∀ l, (t.inputs.get l).state = (s.inputs.get l).state ∧
    (t.inputs.get l).cfg.trigger = (s.inputs.get l).cfg.trigger
  readings : ∀ c, (t.temps.get c).cfg.failValue = (s.temps.get c).cfg.failValue ∧
    (t.temps.get c).value = (s.temps.get c).value
  estimates : ∀ z, (t.zones.get z).cfg = (s.zones.get z).cfg ∧ (t.zones.get z).estimate = (s.zones.get z).estimate ∧
    (t.zones.get z).timer.isSome = (s.zones.get z).timer.isSome

theorem SameSeen.refl (s : State) : SameSeen s s where
  mode := rfl
  hint := rfl
  effective := rfl
  grants := rfl
  faults := rfl
  notices := rfl
  temps _ := Iff.rfl
  powers _ := Iff.rfl
  tripped _ := Iff.rfl
  position _ := rfl
  blind _ := rfl
  accounts _ := rfl
  compliance _ := rfl
  watch := Iff.rfl
  drive _ := rfl
  stuck _ := rfl
  inputs _ := ⟨rfl, rfl⟩
  readings _ := ⟨rfl, rfl⟩
  estimates _ := ⟨rfl, rfl, rfl⟩

/-- s without the fields of which nothing is seen. -/
def State.seen (s : State) : State :=
  { s with
    uptime := 0, queue := [], converter := none, restFail := 0, candidate := none, dwell := none
    committed := .unsettled, enterDwell := 0, relaxDwell := 0, profile := State.reset.profile
    skin := State.reset.skin, column := .safe, thermal := State.reset.thermal, domains := State.reset.domains
    report := State.reset.report, supplyCfg := State.reset.supplyCfg, supply := State.reset.supply
    caps := State.reset.caps, contributors := State.reset.contributors, severity := .clear
    links := State.reset.links, adrsel := false, inReset := false, schedule := State.reset.schedule, pending := [] }

/-- A change of fields of which nothing is seen. -/
theorem SameSeen.of_seen {s t : State} (same : t.seen = s.seen) : SameSeen s t :=
  { (same ▸ .refl s.seen : SameSeen s.seen t.seen) with }

/-- A channel record whose value and fail value are in range where those of the one that it replaces are (R8). -/
structure TempChannel.Passes (v w : TempChannel) : Prop where
  failValue : InRange v.cfg.failValue → InRange w.cfg.failValue
  value : (∀ x, v.value = some x → InRange x) → ∀ x, w.value = some x → InRange x

/-- A zone record in range: sources that weigh 256 and a coefficient of 256 at most while it is enabled, no timer while
it is not, and its estimate (R54, R57, R59, R70). -/
structure Zone.Ranged (w : Zone) : Prop where
  enabled : w.cfg.enabled = true → weightTotal w.cfg.sources = 256 ∧ w.cfg.alpha ≤ 256
  disabled : w.cfg.enabled = false → w.timer = none
  estimate : ∀ e, w.estimate = some e → InRange e

/-- An account's record stored, with BURST raised where its state changes (R82, R83). -/
def storeAccount (d : DomainId) (a : Account) (s : State) : State :=
  if a.state = (s.accounts.get d).state then { s with accounts := s.accounts.set d a }
  else raise .burst { s with accounts := s.accounts.set d a }

/-- A line's level taken as its debounced state, with its notice where the trigger admits the edge (R25, R157). -/
def takenLevel (l : InputId) (asserted : Bool) (s : State) : State :=
  let line := s.inputs.get l
  let stored :=
    { s with inputs := s.inputs.set l { line with state := LineState.ofLevel asserted, debouncing := none } }
  if line.state != .undetermined && line.cfg.trigger.admits asserted then raise (edgeNotice l) stored else stored

/-- A property that each of the moves keeps out of which the commands are made: a change that nothing sees, a notice,
and each change of a condition's owner together with what it reports. The kinds of `exempt` bring moves of their own
that it need not keep, and `Pre` holds where a SET_CHANNEL starts. -/
structure KeptByMoves (exempt : List Kind) (Pre P : State → Prop) : Prop where
  unseen : ∀ s t, SameSeen s t → P s → P t
  raises : ∀ k s, P s → P (raise k s)
  resolves : ∀ d s, P s → P (resolve d s)
  account : ∀ d a s, P s → P (storeAccount d a s)
  overruns : ∀ n s, P s → P (occur .convOverrun n none s)
  starts : ∀ c w s, Pre s → P s → (s.temps.get c).cfg.enabled = false → w.state ≠ .failed →
    (s.temps.get c).Passes w → P (setTempRecord c w s)
  tempStays : ∀ c w s, P s → (w.state = .failed ↔ (s.temps.get c).state = .failed) → (s.temps.get c).Passes w →
    P (setTempRecord c w s)
  tempFails : ∀ c w v s, P s → w.state = .failed → (s.temps.get c).Passes w →
    P (occur .tchFailed c.number v (setTempRecord c w s))
  tempRecovers : ∀ c w s, P s → w.state ≠ .failed → (s.temps.get c).Passes w →
    P (endCondition .tchFailed c.number (setTempRecord c w s))
  powerFails : ∀ n w s, P s → w.state = .failed → P (occur .pchFailed n.number none (setPowerRecord n w s))
  powerRecovers : ∀ n w s, P s → w.state ≠ .failed → P (endCondition .pchFailed n.number (setPowerRecord n w s))
  excessBegins : ∀ d c v s, P s → c.state = .excess → P (occur .excess d.number v (setCompliance d c s))
  excessEnds : ∀ d c s, P s → c.state = .normal → P (endCondition .excess d.number (setCompliance d c s))
  zoneTrips : ∀ z v s, P s →
    P (raise .trip (occur .zoneTrip z.number v (setZoneRecord z { s.zones.get z with state := .tripped } s)))
  zoneRecovers : ∀ z s, P s →
    P (raise .trip (endCondition .zoneTrip z.number (setZoneRecord z { s.zones.get z with state := .active } s)))
  zoneMoves : ∀ z position s, P s → P (moveTo z position s)
  zoneLeaves : ∀ z w s, P s → w.state ≠ .tripped → w.position = 0 → w.blind = (s.zones.get z).blind →
    w.Ranged → P (leaveZone z (s.zones.get z) (setZoneRecord z w s))
  zoneStored : ∀ z cfg s, P s → (s.zones.get z).cfg.enabled = false → cfg.enabled = false →
    P (setZoneRecord z { s.zones.get z with cfg := cfg } s)
  zoneEstimates : ∀ z sum s, P s → (s.zones.get z).timer.isSome = true →
    weightedSum (fun c => (s.temps.get c).consumer) (s.zones.get z).cfg.sources = some sum →
    P (setZoneRecord z ((s.zones.get z).estimated (rawOf sum)) s)
  blindBegins : ∀ z degraded s, P s → P (occur .zoneBlind z.number none
    (setZoneRecord z { s.zones.get z with degraded := degraded, blind := true } s))
  blindEnds : ∀ z degraded s, P s → P (endCondition .zoneBlind z.number
    (setZoneRecord z { s.zones.get z with degraded := degraded, blind := false } s))
  takes : ∀ l asserted s, P s → P (takenLevel l asserted s)
  inputConfig : .setInput ∉ exempt → ∀ l cfg s, P s →
    P { s with inputs := s.inputs.set l { s.inputs.get l with cfg := cfg } }
  posture : ∀ e s, P s → P (raise .posture { s with effective := e })
  drops : ∀ s, P s → P (dropHint s)
  hint : .postureHint ∉ exempt → ∀ h s, P s → P { s with hint := h }
  falls : ∀ s, P s → s.mode = .active → (∃ r ∈ s.faults, r.kind.fatal) → P (raise .mode { s with mode := .safe })
  activates : .activate ∉ exempt → ∀ s, P s → s.mode = .safe → P (raise .mode { s with mode := .active })
  deactivates : .deactivate ∉ exempt → ∀ s, P s → s.mode = .active → P (raise .mode { s with mode := .safe })
  watchTrips : ∀ power v s, P s → P (occur .supplyTrip 0 v { s with watch := ⟨.tripped, power⟩ })
  watchEnds : ∀ power s, P s → P (endCondition .supplyTrip 0 { s with watch := ⟨.clear, power⟩ })
  compares : ∀ l event s, P s → P (compareLine l event s)
  sticks : ∀ l s, P s → P (occur .lineStuck l.number none
    (setLineRecord l { s.lines.get l with stuck := true, window := none } s))
  ends : ∀ fresh s, P s → P (endEventWith fresh s)
  clearNotices : .clearNotices ∉ exempt → ∀ port pending mask s, P s → P (setNotices port pending mask s)
  setNoticeMask : .setNoticeMask ∉ exempt → ∀ port pending mask s, P s → P (setNotices port pending mask s)
  clearFaults : .clearFaults ∉ exempt → ∀ u s, P s → P (ownClearFaults u s).1

/-! ## Records of which the seen part stays -/

/-! What a table shows of each record stays where a record is replaced by one that shows the same. -/

theorem PerTemp.apply_get_set {α β : Type} {f : α → β} {v : PerTemp α} {i : TempId} {x : α}
    (same : f x = f (v.get i)) (j : TempId) : f ((v.set i x).get j) = f (v.get j) := by
  rw [PerTemp.get_set]
  split
  · rename_i own
    rw [own, same]
  · rfl

theorem PerPower.apply_get_set {α β : Type} {f : α → β} {v : PerPower α} {i : PowerId} {x : α}
    (same : f x = f (v.get i)) (j : PowerId) : f ((v.set i x).get j) = f (v.get j) := by
  rw [PerPower.get_set]
  split
  · rename_i own
    rw [own, same]
  · rfl

theorem PerZone.apply_get_set {α β : Type} {f : α → β} {v : PerZone α} {i : ZoneId} {x : α}
    (same : f x = f (v.get i)) (j : ZoneId) : f ((v.set i x).get j) = f (v.get j) := by
  rw [PerZone.get_set]
  split
  · rename_i own
    rw [own, same]
  · rfl

theorem PerDomain.apply_get_set {α β : Type} {f : α → β} {v : PerDomain α} {i : DomainId} {x : α}
    (same : f x = f (v.get i)) (j : DomainId) : f ((v.set i x).get j) = f (v.get j) := by
  rw [PerDomain.get_set]
  split
  · rename_i own
    rw [own, same]
  · rfl

theorem PerLine.apply_get_set {α β : Type} {f : α → β} {v : PerLine α} {i : LineId} {x : α}
    (same : f x = f (v.get i)) (j : LineId) : f ((v.set i x).get j) = f (v.get j) := by
  rw [PerLine.get_set]
  split
  · rename_i own
    rw [own, same]
  · rfl

theorem PerInput.apply_get_set {α β : Type} {f : α → β} {v : PerInput α} {i : InputId} {x : α}
    (same : f x = f (v.get i)) (j : InputId) : f ((v.set i x).get j) = f (v.get j) := by
  rw [PerInput.get_set]
  split
  · rename_i own
    rw [own, same]
  · rfl

theorem SameSeen.elapse (n : Nat) (s : State) : SameSeen s (elapse n s) :=
  { SameSeen.refl s with
    temps c := by simp
    powers c := by simp
    tripped z := by simp
    position z := by simp
    blind z := by simp
    compliance d := by simp
    watch := by cases state : s.watch.state <;> simp [state]
    drive l := by simp
    stuck l := by simp
    inputs l := by simp
    readings c := by simp
    estimates z := by simp }

theorem SameSeen.input {l : InputId} {w : InputLine} {s : State} (state : w.state = (s.inputs.get l).state)
    (trigger : w.cfg.trigger = (s.inputs.get l).cfg.trigger) :
    SameSeen s { s with inputs := s.inputs.set l w } :=
  { SameSeen.refl s with
    inputs other := ⟨PerInput.apply_get_set (f := InputLine.state) state other,
      PerInput.apply_get_set (f := fun v : InputLine => v.cfg.trigger) trigger other⟩ }

theorem SameSeen.temp {c : TempId} {w : TempChannel} {s : State}
    (same : w.state = .failed ↔ (s.temps.get c).state = .failed)
    (failValue : w.cfg.failValue = (s.temps.get c).cfg.failValue) (value : w.value = (s.temps.get c).value) :
    SameSeen s (setTempRecord c w s) :=
  { SameSeen.refl s with
    readings other := ⟨PerTemp.apply_get_set (f := fun v : TempChannel => v.cfg.failValue) failValue other,
      PerTemp.apply_get_set (f := TempChannel.value) value other⟩
    temps other := iff_of_eq (PerTemp.apply_get_set (f := fun v : TempChannel => v.state = .failed) (propext same) other) }

theorem SameSeen.power {n : PowerId} {w : PowerChannel} {s : State}
    (same : w.state = .failed ↔ (s.powers.get n).state = .failed) : SameSeen s (setPowerRecord n w s) :=
  { SameSeen.refl s with
    powers other :=
      iff_of_eq (PerPower.apply_get_set (f := fun v : PowerChannel => v.state = .failed) (propext same) other) }

theorem SameSeen.zone {z : ZoneId} {w : Zone} {s : State}
    (tripped : w.state = .tripped ↔ (s.zones.get z).state = .tripped)
    (position : w.position = (s.zones.get z).position) (blind : w.blind = (s.zones.get z).blind)
    (cfg : w.cfg = (s.zones.get z).cfg) (estimate : w.estimate = (s.zones.get z).estimate)
    (timer : w.timer.isSome = (s.zones.get z).timer.isSome) : SameSeen s (setZoneRecord z w s) :=
  { SameSeen.refl s with
    estimates other := ⟨PerZone.apply_get_set (f := Zone.cfg) cfg other,
      PerZone.apply_get_set (f := Zone.estimate) estimate other,
      PerZone.apply_get_set (f := fun v : Zone => v.timer.isSome) timer other⟩
    tripped other := iff_of_eq (PerZone.apply_get_set (f := fun v : Zone => v.state = .tripped) (propext tripped) other)
    position := PerZone.apply_get_set (f := Zone.position) position
    blind := PerZone.apply_get_set (f := Zone.blind) blind }

theorem SameSeen.compliance_set {d : DomainId} {c : Compliance} {s : State}
    (same : c.state = (s.compliance.get d).state) :
    SameSeen s (setCompliance d c s) :=
  { SameSeen.refl s with
    compliance := PerDomain.apply_get_set (f := Compliance.state) same }

theorem SameSeen.line {l : LineId} {w : ThrottleLine} {s : State} (drive : w.drive = (s.lines.get l).drive)
    (stuck : w.stuck = (s.lines.get l).stuck) : SameSeen s (setLineRecord l w s) :=
  { SameSeen.refl s with
    drive := PerLine.apply_get_set (f := ThrottleLine.drive) drive
    stuck := PerLine.apply_get_set (f := ThrottleLine.stuck) stuck }

/-! ## What the validations grant -/

theorem clampInt_inRange (x : Int) : InRange (clampInt Config.temperatureMin Config.temperatureMax x) := by
  rw [clampInt_eq _ _ _ (by decide), InRange, Config.temperatureMin, Config.temperatureMax]
  omega

/-- A reading is clamped (R8). -/
theorem TempChannel.passes_good (v : TempChannel) (reading offset : Int) (uptime : Nat) :
    v.Passes (v.good reading offset uptime) :=
  ⟨id, fun _ _ e => Option.some.inj e ▸ clampInt_inRange _⟩

theorem channelValid_failValue {c : TempId} {cfg : ChannelConfig} {s : State} (valid : channelValid c cfg s = true) :
    InRange cfg.failValue := by
  simp only [channelValid, Bool.and_eq_true, decide_eq_true_iff] at valid
  obtain ⟨⟨⟨-, least⟩, most⟩, -⟩ := valid
  exact ⟨least, most⟩

/-- An enabled zone has sources, which weigh 256, and a coefficient of 256 at most (R70). -/
theorem zoneValid_enabled {r : ZoneRequest} {sources : List Source} {s : State} (valid : zoneValid r sources s = true)
    (enabled : r.enabled = true) : weightTotal sources = 256 ∧ r.alpha ≤ 256 := by
  simp only [zoneValid, enabled, Bool.not_true, Bool.false_or, Bool.and_eq_true, Bool.or_eq_true, decide_eq_true_iff,
    beq_iff_eq, Bool.not_eq_true'] at valid
  obtain ⟨⟨⟨⟨⟨⟨⟨⟨⟨-, alpha⟩, -⟩, -⟩, -⟩, -⟩, -⟩, -⟩, weigh⟩, ⟨given, -⟩, -⟩ := valid
  refine ⟨?_, alpha⟩
  rcases weigh with empty | ⟨-, total⟩
  · rw [empty] at given
    cases given
  · exact total

/-! ## What an update leaves of a zone -/

theorem Zone.estimated_tripped (v : Zone) (raw : Int) : (v.estimated raw).state = .tripped ↔ v.state = .tripped := by
  cases state : v.state <;> simp [Zone.estimated, state]

theorem Zone.estimated_position (v : Zone) (raw : Int) : (v.estimated raw).position = v.position := by
  cases state : v.state <;> simp [Zone.estimated, state]

theorem Zone.estimated_blind (v : Zone) (raw : Int) : (v.estimated raw).blind = v.blind := by
  cases state : v.state <;> simp [Zone.estimated, state]

/-! ## What the moves keep, the operations keep -/

/-- An occurrence of a FATAL kind leaves a record of one in the log. -/
theorem occur_holds_fatal {kind : FaultKind} {n : Nat} {v : Option Int} {s : State} (fatal : kind.fatal) :
    ∃ r ∈ (occur kind n v s).faults, r.kind.fatal := by
  cases held : logHolds s.faults kind n with
  | false =>
    rw [occur_first _ _ _ _ held]
    exact ⟨newRecord kind n v s.uptime, by simp, fatal⟩
  | true =>
    rw [occur_again _ _ _ _ held]
    obtain ⟨r, hr, same, -⟩ := (logHolds_iff _ _ _).mp held
    refine ⟨_, List.mem_map.mpr ⟨r, hr, rfl⟩, ?_⟩
    split <;> exact same ▸ fatal


section

variable {exempt : List Kind} {Pre P : State → Prop} (k : KeptByMoves exempt Pre P) {s : State}

include k

theorem KeptByMoves.inAnyOrder {todo : List (State → State)} (each : ∀ f ∈ todo, ∀ u, P u → P (f u)) (h : P s) :
    P (inAnyOrder todo s) :=
  inAnyOrder_keeps P (fun u _ => k.unseen u _ (.of_seen rfl)) todo each s h

/-! ### Resolver, arbiter and accounts -/

theorem KeptByMoves.offerAllowanceToResolver (d : DomainId) (h : P s) : P (offerAllowanceToResolver d s) :=
  k.resolves d _ (k.unseen s _ (.of_seen rfl) h)

theorem KeptByMoves.offerShareToResolver (d : DomainId) (h : P s) : P (offerShareToResolver d s) :=
  k.resolves d _ (k.unseen s _ (.of_seen rfl) h)

theorem KeptByMoves.offerPercentToResolver (d : DomainId) (h : P s) : P (offerPercentToResolver d s) :=
  k.resolves d _ (k.unseen s _ (.of_seen rfl) h)

theorem KeptByMoves.offerCapsToResolver (d : DomainId) (h : P s) : P (offerCapsToResolver d s) :=
  k.resolves d _ (k.unseen s _ (.of_seen rfl) h)

theorem KeptByMoves.offerShareIfChanged (before : PerDomain (Option Nat)) (d : DomainId) (h : P s) :
    P (offerShareIfChanged before d s) := by
  unfold Machine.offerShareIfChanged
  split
  · exact h
  · exact k.offerShareToResolver d h

theorem KeptByMoves.recomputeShares (h : P s) : P (recomputeShares s) :=
  k.offerShareIfChanged _ _ (k.offerShareIfChanged _ _ (k.offerShareIfChanged _ _ (k.unseen s _ (.of_seen rfl) h)))

theorem KeptByMoves.settleAccount (d : DomainId) (next : Account) (h : P s) : P (settleAccount d next s) := by
  have stored := k.account d { next with allowance := next.selected } s h
  unfold storeAccount at stored
  unfold Machine.settleAccount
  dsimp only
  split
  · exact stored
  · refine k.inAnyOrder ?_ stored
    simp only [List.mem_cons, List.not_mem_nil, or_false]
    rintro f (rfl | rfl) u hu
    · exact k.recomputeShares hu
    · exact k.offerAllowanceToResolver d hu

theorem KeptByMoves.accountSwitch (d : DomainId) (h : P s) : P (accountSwitch d s) := k.settleAccount d _ h

theorem KeptByMoves.accountThermal (d : DomainId) (h : P s) : P (accountThermal d s) := k.settleAccount d _ h

theorem KeptByMoves.accountRecover (d : DomainId) (h : P s) : P (accountRecover d s) := k.settleAccount d _ h

theorem KeptByMoves.accountDelivery (d : DomainId) (power dt : Nat) (h : P s) : P (accountDelivery d power dt s) :=
  k.settleAccount d _ h

/-! ### Compliance and the watch -/

theorem KeptByMoves.sameCompliance {d : DomainId} {c : Compliance}
    (same : c.state = (s.compliance.get d).state) (h : P s) :
    P (setCompliance d c s) := k.unseen s _ (.compliance_set same) h

theorem KeptByMoves.judgeDelivery (d : DomainId) (power : Nat) (h : P s) : P (judgeDelivery d power s) := by
  unfold Machine.judgeDelivery
  dsimp only
  split
  · rename_i normal
    split
    · exact h
    · split
      · split
        · exact k.excessBegins d _ _ s h rfl
        · exact k.sameCompliance rfl h
      · exact k.sameCompliance rfl h
  · split
    · split
      · exact k.excessEnds d _ s h rfl
      · exact k.sameCompliance rfl h
    · exact k.sameCompliance rfl h

theorem KeptByMoves.complianceDelivery (d : DomainId) (quality : Quality) (power : Nat) (h : P s) :
    P (complianceDelivery d quality power s) := by
  cases quality with
  | valid => exact k.judgeDelivery d power h
  | held => exact k.judgeDelivery d power h
  | substitute =>
    simp only [Machine.complianceDelivery, substituteCompliance]
    split
    · rename_i normal
      exact k.sameCompliance normal.symm h
    · exact k.excessEnds d _ s h rfl

theorem KeptByMoves.watchDelivery (power : Nat) (h : P s) : P (watchDelivery power s) := by
  unfold Machine.watchDelivery
  dsimp only
  split
  · rename_i clear
    refine k.unseen s _ { SameSeen.refl s with watch := ?_ } h
    simp only [clear]
    split <;> simp
  · rename_i timing
    refine k.unseen s _ { SameSeen.refl s with watch := ?_ } h
    simp only [timing]
    split <;> simp
  · rename_i tripped
    split
    · exact k.watchEnds power s h
    · exact k.unseen s _ { SameSeen.refl s with watch := by simp [tripped] } h

theorem KeptByMoves.watchFailure (h : P s) : P (watchFailure s) := by
  unfold Machine.watchFailure
  split
  · rename_i timing
    exact k.unseen s _ { SameSeen.refl s with watch := by simp [timing] } h
  · exact h
  · exact h

/-! ### Zones -/

theorem KeptByMoves.offerThermal (d : DomainId) (h : P s) : P (offerThermal d s) := by
  refine k.inAnyOrder ?_ h
  simp only [List.mem_cons, List.not_mem_nil, or_false]
  rintro f (rfl | rfl) u hu
  · exact k.accountThermal d hu
  · exact k.offerPercentToResolver d hu

theorem KeptByMoves.recomputeThermal (h : P s) : P (recomputeThermal s) := by
  have each : ∀ d u, P u → P (recomputeThermalOf d u) := by
    intro d u hu
    unfold recomputeThermalOf
    dsimp only
    split
    · exact hu
    · exact k.offerThermal d (k.unseen u _ (.of_seen rfl) hu)
  refine k.inAnyOrder ?_ h
  simp only [List.mem_cons, List.not_mem_nil, or_false]
  rintro f (rfl | rfl | rfl) u hu <;> exact each _ u hu

theorem KeptByMoves.tripCheck (z : ZoneId) (h : P s) : P (tripCheck z s) := by
  unfold Machine.tripCheck
  dsimp only
  split
  · exact h
  · split
    · split
      · exact k.zoneTrips z _ s h
      · exact h
    · split
      · exact k.zoneRecovers z s h
      · exact h
    · exact h
    · exact h

theorem KeptByMoves.ladderUp (z : ZoneId) (h : P s) : P (ladderUp z s) := by
  unfold Machine.ladderUp
  dsimp only
  split
  · exact h
  · split
    · exact k.zoneMoves z _ s h
    · exact h

theorem KeptByMoves.ladderUpdate (z : ZoneId) (h : P s) : P (ladderUpdate z s) := by
  unfold Machine.ladderUpdate
  dsimp only
  split
  · exact h
  · split
    · exact k.ladderUp z h
    · split
      · exact k.zoneMoves z _ s h
      · exact k.unseen s _ (.zone Iff.rfl rfl rfl rfl rfl rfl) h

theorem KeptByMoves.zoneSwitch (z : ZoneId) (h : P s) : P (zoneSwitch z s) := by
  unfold Machine.zoneSwitch
  split
  · exact k.ladderUp z (k.tripCheck z h)
  · exact h

theorem KeptByMoves.zonesSwitch (h : P s) : P (zonesSwitch s) := by
  refine k.recomputeThermal (k.inAnyOrder ?_ h)
  simp only [List.mem_cons, List.not_mem_nil, or_false]
  rintro f (rfl | rfl | rfl | rfl) u hu <;> exact k.zoneSwitch _ hu

theorem KeptByMoves.updateZone {z : ZoneId} {sum : Int} (h : P s) (runs : (s.zones.get z).timer.isSome = true)
    (offered : weightedSum (fun c => (s.temps.get c).consumer) (s.zones.get z).cfg.sources = some sum) :
    P (updateZone z sum s) := by
  have checked := k.tripCheck z (k.zoneEstimates z sum s h runs offered)
  refine k.recomputeThermal ?_
  split
  · exact k.ladderUp z checked
  · exact k.ladderUpdate z checked

/-! ### Column, posture and mode -/

theorem KeptByMoves.announceSwitch (h : P s) : P (announceSwitch s) := by
  refine k.inAnyOrder ?_ h
  simp only [List.mem_cons, List.not_mem_nil, or_false]
  rintro f (rfl | rfl | rfl | rfl | rfl) u hu
  · exact k.zonesSwitch hu
  · exact k.accountSwitch _ hu
  · exact k.accountSwitch _ hu
  · exact k.accountSwitch _ hu
  · exact k.recomputeShares hu

theorem KeptByMoves.deriveColumn (h : P s) : P (deriveColumn s) := by
  unfold Machine.deriveColumn
  dsimp only
  split
  · exact h
  · exact k.announceSwitch (k.unseen s _ (.of_seen rfl) h)

theorem KeptByMoves.deriveEffective (h : P s) : P (deriveEffective s) := by
  unfold Machine.deriveEffective
  dsimp only
  split
  · exact h
  · exact k.deriveColumn (k.posture _ s h)

theorem KeptByMoves.clearCapS (d : DomainId) (h : P s) : P (clearCapS d s) := by
  unfold Machine.clearCapS
  dsimp only
  split
  · exact h
  · refine k.inAnyOrder ?_ (k.unseen s _ (.of_seen rfl) h)
    simp only [List.mem_cons, List.not_mem_nil, or_false]
    rintro f (rfl | rfl) u hu
    · exact k.offerCapsToResolver d hu
    · exact k.recomputeShares hu

theorem KeptByMoves.dropSystemHint (h : P s) : P (dropSystemHint s) := by
  unfold Machine.dropSystemHint
  split
  · exact k.deriveEffective (k.drops s h)
  · exact h

/-- What leaves ACTIVE behind the change of mode. -/
theorem KeptByMoves.leaveActive (h : P (raise .mode { s with mode := .safe })) : P (leaveActive s) := by
  refine k.inAnyOrder ?_ h
  simp only [List.mem_cons, List.not_mem_nil, or_false]
  rintro f (rfl | rfl | rfl | rfl | rfl) u hu
  · exact k.deriveColumn hu
  · exact k.clearCapS _ hu
  · exact k.clearCapS _ hu
  · exact k.clearCapS _ hu
  · exact k.dropSystemHint hu

theorem KeptByMoves.occurFatal {kind : FaultKind} {n : Nat} {v : Option Int} (fatal : kind.fatal)
    (h : P (occur kind n v s)) : P (occurFatal kind n v s) := by
  unfold Machine.occurFatal
  dsimp only
  split
  · exact h
  · rename_i active
    exact k.leaveActive (k.falls _ h active (occur_holds_fatal fatal))

theorem KeptByMoves.followSources (z : ZoneId) (h : P s) : P (followSources z s) := by
  unfold Machine.followSources
  dsimp only
  split
  · rename_i same
    exact k.unseen s _ (.zone Iff.rfl rfl same rfl rfl rfl) h
  · split
    · rename_i blind
      rw [blind]
      exact k.occurFatal (.inl rfl) (k.blindBegins z _ s h)
    · rename_i seeing
      rw [Bool.not_eq_true] at seeing
      rw [seeing]
      exact k.blindEnds z _ s h

theorem KeptByMoves.sourcesChanged (h : P s) : P (sourcesChanged s) := by
  refine k.ends none _ (k.inAnyOrder ?_ h)
  simp only [List.mem_cons, List.not_mem_nil, or_false]
  rintro f (rfl | rfl | rfl | rfl) u hu <;> exact k.followSources _ hu

theorem KeptByMoves.endEvent (h : P s) : P (endEvent s) := k.ends none s h

/-! ### Sensing -/

theorem KeptByMoves.changeTemp {c : TempId} {v w : TempChannel} (own : v = s.temps.get c) (passes : v.Passes w)
    (h : P s) : P (changeTemp c v w s) := by
  subst own
  unfold Machine.changeTemp
  dsimp only
  split
  · rename_i fails
    exact k.sourcesChanged (k.tempFails c w _ s h fails.2 passes)
  · split
    · rename_i recovers
      exact k.sourcesChanged (k.tempRecovers c w s h recovers.2 passes)
    · exact k.tempStays c w s h (by tauto) passes

theorem KeptByMoves.startConversion (h : P s) : P (startConversion s) := by
  unfold Machine.startConversion
  split
  · exact k.unseen s _ (.of_seen rfl) h
  · exact h

theorem KeptByMoves.requestConversion (c : TempId) (h : P s) : P (requestConversion c s) := by
  unfold Machine.requestConversion
  split
  · exact k.overruns _ s h
  · exact k.startConversion (k.unseen s _ (.of_seen rfl) h)

theorem KeptByMoves.handleOutcome (j : Conversion) (result : RawResult) (h : P s) : P (handleOutcome j result s) := by
  unfold Machine.handleOutcome
  dsimp only
  split
  · exact k.changeTemp rfl (TempChannel.passes_good _ _ _ _) h
  · exact k.changeTemp rfl ⟨id, id⟩ h

theorem KeptByMoves.reportPower {n : PowerId} {w : PowerChannel} (h : P s) :
    P (reportPower n (s.powers.get n).state w.state (setPowerRecord n w s)) := by
  unfold Machine.reportPower
  split
  · rename_i fails
    exact k.powerFails n w s h fails.2
  · split
    · rename_i recovers
      exact k.powerRecovers n w s h recovers.2
    · refine k.unseen s _ (.power ?_) h
      tauto

theorem KeptByMoves.deliverToDomain (d : DomainId) (v : PowerChannel) (h : P s) : P (deliverToDomain d v s) := by
  unfold Machine.deliverToDomain
  split
  · exact h
  · exact k.endEvent (k.accountDelivery d _ _ (k.complianceDelivery d _ _ h))

theorem KeptByMoves.restChange (before : Nat) (h : P s) : P (restChange before s) := by
  unfold Machine.restChange
  split
  · exact h
  · exact k.endEvent (k.recomputeShares h)

theorem KeptByMoves.deliverToWatch (old : ChannelState) (v : PowerChannel) (h : P s) : P (deliverToWatch old v s) := by
  unfold Machine.deliverToWatch
  split
  · exact k.endEvent (k.watchDelivery _ h)
  · exact k.endEvent (k.watchDelivery _ h)
  · split
    · exact h
    · exact k.watchFailure h
  · exact h
  · exact h

theorem KeptByMoves.deliver (n : PowerId) (old v : PowerChannel) (h : P s) : P (deliver n old v s) := by
  cases n with
  | pm0 => exact k.deliverToDomain .d0 v h
  | pm1 => exact k.deliverToDomain .d1 v h
  | pm2 => exact k.deliverToDomain .d2 v h
  | pm3 => exact k.restChange _ h
  | pm4 => exact k.deliverToWatch _ v h

/-! ### Classifier -/

theorem KeptByMoves.commit (c : Place) (h : P s) : P (commit c s) := by
  have committed : P { s with committed := c.posture, dwell := none } := k.unseen s _ (.of_seen rfl) h
  unfold Machine.commit
  dsimp only
  split
  · split
    · exact k.drops _ committed
    · exact committed
  · exact committed

theorem KeptByMoves.reclassify (h : P s) : P (reclassify s) := by
  unfold Machine.reclassify
  dsimp only
  split
  · exact h
  · split
    · exact k.unseen s _ (.of_seen rfl) h
    · unfold setDwell
      split
      · exact k.unseen s _ (.of_seen rfl) h
      · exact k.commit _ (k.unseen s _ (.of_seen rfl) h)
      · exact k.unseen s _ (.of_seen rfl) h

theorem KeptByMoves.classifierEvent (l : InputId) (edge : Bool) (h : P s) : P (classifierEvent l edge s) := by
  refine k.deriveEffective (k.reclassify ?_)
  split
  · exact k.drops s h
  · exact h

theorem KeptByMoves.takeLevel (l : InputId) (asserted : Bool) (h : P s) : P (takeLevel l asserted s) := by
  have taken := k.takes l asserted s h
  unfold takenLevel at taken
  unfold Machine.takeLevel
  dsimp only at taken ⊢
  cases l with
  | acin =>
    refine k.endEvent (k.inAnyOrder ?_ taken)
    simp only [List.mem_cons, List.not_mem_nil, or_false]
    rintro f (rfl | rfl) u hu
    · exact k.classifierEvent _ _ hu
    · exact k.recomputeShares hu
  | lid => exact k.endEvent (k.classifierEvent _ _ taken)
  | motion => exact k.endEvent (k.classifierEvent _ _ taken)
  | contact => exact k.endEvent (k.classifierEvent _ _ taken)

theorem KeptByMoves.startDebounce (l : InputId) (asserted : Bool) (h : P s) : P (startDebounce l asserted s) := by
  unfold Machine.startDebounce
  dsimp only
  split
  · exact k.takeLevel l asserted h
  · exact k.unseen s _ (.input rfl rfl) h

theorem KeptByMoves.levelChange (l : InputId) (h : P s) : P (levelChange l s) := by
  unfold Machine.levelChange
  dsimp only
  split
  · exact k.unseen s _ (.input rfl rfl) h
  · exact k.startDebounce l _ h

theorem KeptByMoves.commitCandidate (h : P s) : P (commitCandidate s) := by
  unfold Machine.commitCandidate
  split
  · exact k.unseen s _ (.of_seen rfl) h
  · exact k.endEvent (k.deriveEffective (k.commit _ h))

/-! ### Configurations -/

theorem KeptByMoves.configureChannel {c : TempId} {cfg : ChannelConfig} (pre : Pre s) (h : P s)
    (failValue : InRange cfg.failValue) : P (configureChannel c cfg s) := by
  unfold Machine.configureChannel
  dsimp only
  split
  · exact h
  · split
    · exact k.tempStays c _ s h Iff.rfl ⟨fun _ => failValue, id⟩
    · rename_i disabled _
      exact k.starts c _ s pre h disabled (by simp [TempChannel.emptied]) ⟨fun _ => failValue, fun _ _ e => by cases e⟩
    · exact k.changeTemp rfl ⟨fun _ => failValue, fun _ _ e => by cases e⟩ (k.unseen s _ (.of_seen rfl) h)
    · refine k.changeTemp rfl ⟨fun _ => failValue, fun inRange x e => ?_⟩ (k.unseen s _ (.of_seen rfl) h)
      dsimp only at e
      split at e
      · exact inRange x e
      · cases e

theorem KeptByMoves.configurePower (n : PowerId) (interval hold fail : Nat) (h : P s) :
    P (configurePower n interval hold fail s) := by
  have stored : ∀ timer, P (setPowerRecord n
      { s.powers.get n with interval := interval, holdCount := hold, timer := timer } s) :=
    fun _ => k.unseen s _ (.power Iff.rfl) h
  unfold Machine.configurePower
  dsimp only
  split
  · exact k.restChange _ (k.unseen (setPowerRecord .pm3 _ s) _ (.of_seen rfl) (stored _))
  all_goals exact stored _

/-- What a SET_INPUT brings about behind the stored fields. -/
theorem KeptByMoves.configureInput_of_stored {l : InputId} {cfg : InputConfig}
    (stored : P { s with inputs := s.inputs.set l { s.inputs.get l with cfg := cfg } }) :
    P (configureInput l cfg s) := by
  unfold Machine.configureInput
  dsimp only
  split
  · exact k.levelChange l stored
  · split
    · split
      · exact k.startDebounce l _ stored
      · exact stored
    · exact stored

theorem KeptByMoves.configureZone {z : ZoneId} {cfg : ZoneConfig} (h : P s)
    (sound : cfg.enabled = true → weightTotal cfg.sources = 256 ∧ cfg.alpha ≤ 256) : P (configureZone z cfg s) := by
  have left : ∀ {w : Zone}, w.state ≠ .tripped → w.position = 0 → w.blind = (s.zones.get z).blind → w.Ranged →
      P (Machine.endEvent (Machine.recomputeThermal
        (Machine.followSources z (leaveZone z (s.zones.get z) (setZoneRecord z w s))))) :=
    fun notTripped bottom blind ranged =>
      k.endEvent (k.recomputeThermal (k.followSources z (k.zoneLeaves z _ s h notTripped bottom blind ranged)))
  unfold Machine.configureZone
  dsimp only
  split
  · exact h
  · split
    · rename_i was stays
      exact k.zoneStored z cfg s h was stays
    · rename_i enabled
      exact left (by simp [Zone.emptied]) rfl rfl
        ⟨fun _ => sound enabled, fun off => (by cases enabled.symm.trans off), fun _ e => by cases e⟩
    · rename_i _ disabled
      exact left (by simp [Zone.emptied]) rfl rfl
        ⟨fun on => (by cases on.symm.trans disabled), fun _ => rfl, fun _ e => by cases e⟩

theorem KeptByMoves.configureLadder (z : ZoneId) (steps : List LadderStep) (h : P s) :
    P (configureLadder z steps s) := by
  unfold Machine.configureLadder
  dsimp only
  split
  · exact h
  · split
    · exact k.endEvent (k.recomputeThermal (k.zoneMoves z _ _ (k.unseen s _ (.zone Iff.rfl rfl rfl rfl rfl rfl) h)))
    · exact k.endEvent (k.recomputeThermal (k.unseen s _ (.zone Iff.rfl rfl rfl rfl rfl rfl) h))

theorem KeptByMoves.reselectDomain (d : DomainId) (h : P s) : P (reselectDomain d s) := by
  refine k.inAnyOrder ?_ h
  simp only [List.mem_cons, List.not_mem_nil, or_false]
  rintro f (rfl | rfl) u hu
  · exact k.accountSwitch d hu
  · exact k.recomputeShares hu

theorem KeptByMoves.storeEntry (d : DomainId) (c : Column) (e : Entry) (h : P s) : P (storeEntry d c e s) := by
  unfold Machine.storeEntry
  dsimp only
  split
  · exact k.endEvent (k.reselectDomain d (k.unseen s _ (.of_seen rfl) h))
  · exact k.unseen s _ (.of_seen rfl) h

theorem KeptByMoves.storeLimits (z : ZoneId) (limits : PerColumn Int) (h : P s) : P (storeLimits z limits s) := by
  unfold Machine.storeLimits
  dsimp only
  split
  · exact k.unseen s _ (.of_seen rfl) h
  · exact k.endEvent (k.recomputeThermal (k.zoneSwitch z (k.unseen s _ (.of_seen rfl) h)))

theorem KeptByMoves.configureDomain (d : DomainId) (r : DomainRecord) (h : P s) : P (configureDomain d r s) := by
  unfold Machine.configureDomain
  dsimp only
  split
  · exact h
  · refine k.endEvent (k.inAnyOrder ?_ (k.unseen s _ (.of_seen rfl) h))
    have only : ∀ (b : Bool) (f : State → State), (∀ u, P u → P (f u)) → ∀ u, P u → P (onlyIf b f u) := by
      intro b f keeps u hu
      unfold onlyIf
      split
      · exact keeps u hu
      · exact hu
    simp only [List.mem_cons, List.not_mem_nil, or_false]
    rintro f (rfl | rfl | rfl | rfl)
    · exact only _ _ fun _ => k.accountRecover d
    · exact only _ _ fun _ => k.recomputeShares
    · exact only _ _ (k.resolves d)
    · exact only _ _ fun _ => k.sameCompliance rfl

theorem KeptByMoves.configureLine (l : LineId) (cfg : LineConfig) (h : P s) : P (configureLine l cfg s) := by
  unfold Machine.configureLine
  dsimp only
  split
  · exact h
  · exact k.ends _ _ (k.unseen s _ (.line rfl rfl) h)

theorem KeptByMoves.configureSupply (c : SupplyConfig) (h : P s) : P (configureSupply c s) := by
  unfold Machine.configureSupply
  split
  · exact h
  · exact k.endEvent (k.recomputeShares (k.unseen s _ (.of_seen rfl) h))

theorem KeptByMoves.storeCap (d : DomainId) (port : Port) (cap : Option Nat) (h : P s) : P (storeCap d port cap s) := by
  unfold Machine.storeCap
  dsimp only
  split
  · exact h
  · refine k.endEvent (k.inAnyOrder ?_ (k.unseen s _ (.of_seen rfl) h))
    simp only [List.mem_cons, List.not_mem_nil, or_false]
    rintro f (rfl | rfl) u hu
    · exact k.offerCapsToResolver d hu
    · exact k.recomputeShares hu

theorem KeptByMoves.placeHint (taken : Kind.postureHint ∉ exempt) (hint : Option Hint) (h : P s) :
    P (placeHint hint s) := by
  unfold Machine.placeHint
  split
  · exact h
  · exact k.endEvent (k.deriveEffective (k.hint taken hint s h))

/-! ### Events and requests -/

/-- What the moves keep, the events keep. -/
theorem KeptByMoves.events : KeptByEvents (fun _ => True) P where
  pre _ _ _ := trivial
  time n s h := k.unseen s _ (.elapse n s) h
  interval c s h := k.requestConversion c (k.unseen s _ (.temp Iff.rfl rfl rfl) h)
  conversionEnd j result s _ h _ := by
    have idle : P { s with converter := none } := k.unseen s _ (.of_seen rfl) h
    refine k.startConversion ?_
    split
    · exact idle
    · exact k.handleOutcome j result idle
  sample n sample s _ h := k.deliver n _ _ (k.reportPower h)
  trip w s h _ := k.endEvent (k.occurFatal (.inr (.inr rfl)) (k.watchTrips s.watch.lastSys _ s h))
  level l high s h _ := k.levelChange l (k.unseen s _ (.input rfl rfl) h)
  debounced l b s h _ := k.takeLevel l _ h
  dwell w s h _ := k.commitCandidate h
  zoneWaits z s h runs := k.unseen s _ (.zone Iff.rfl rfl rfl rfl rfl runs.symm) h
  zoneUpdate z sum s h runs offered := k.endEvent (k.updateZone h runs offered)
  settled d s h := k.sameCompliance rfl h
  sensed l high s h := k.compares l .sensed _ (k.unseen s _ (.line rfl rfl) h)
  sticks l w s h _ := k.endEvent (k.occurFatal (.inr (.inl rfl)) (k.sticks l s h))

/-- What the moves keep, the requests keep. -/
theorem KeptByMoves.requests : KeptByRequests exempt Pre P where
  clearNotices := k.clearNotices
  setNoticeMask := k.setNoticeMask
  clearFaults := k.clearFaults
  channel c cfg s pre h valid := k.configureChannel pre h (channelValid_failValue valid)
  power n interval hold fail s h := k.configurePower n interval hold fail h
  input taken l cfg s h _ := k.configureInput_of_stored (k.inputConfig taken l cfg s h)
  timing _ _ s h := k.unseen s _ (.of_seen rfl) h
  zone z r sources s h _ valid := k.configureZone h fun enabled => zoneValid_enabled valid enabled
  ladder z steps s h _ := k.configureLadder z steps h
  profile _ d c e s h _ := k.storeEntry d c e h
  skin z limits s h _ := k.storeLimits z limits h
  domain _ d r s h _ _ := k.configureDomain d r h
  routing l cfg s h _ _ := k.configureLine l cfg h
  supplyConfig c s h _ := k.configureSupply c h
  report r s h := k.endEvent (k.recomputeShares (k.unseen s _ (.of_seen rfl) h))
  cap _ d port cap s h _ := k.storeCap d port cap h
  hint taken hint s h _ := k.placeHint taken hint h
  force l level s h := k.endEvent (k.unseen s _ (.line rfl rfl) h)
  activate taken s h safe _ := k.endEvent (k.deriveColumn (k.activates taken s h safe))
  deactivate taken s h active := k.endEvent (k.leaveActive (k.deactivates taken s h active))

end

/-- What the moves keep, every command keeps but a reset and a request of the kinds left out. -/
theorem KeptByMoves.exec {exempt : List Kind} {Pre P : State → Prop} (k : KeptByMoves exempt Pre P) {i : Instr}
    {s t : State} (other : ¬IsReset i) (taken : ∀ kind call body, i = requestOf kind call body → kind ∉ exempt)
    (pre : Pre s) (h : P s) (e : exec i s = .next t) : P t := by
  cases transaction : callOf i with
  | some call =>
    exact k.requests.transaction (fun u _ => k.unseen u _ (.of_seen rfl)) (by simp [transaction]) taken pre h e
  | none => exact k.events.event transaction other trivial h e

end Sys2Proof.Machine

/-! # The mode (R149 to R153) -/

namespace Sys2Proof.Machine

open Sys2Proof

/-- A request keeps what does not look at the links and what its kind's owner keeps. -/
theorem request_keeps {P : State → Prop} (blind : ∀ s l, P s → P { s with links := l }) {kind : Kind} {call : Call}
    {body : List Byte} {s t : State} (h : P s)
    (own : ∀ received done, Admitted kind call.port s → serve kind call.port received s = some done → P done.1)
    (e : exec (requestOf kind call body) s = .next t) : P t := by
  rw [exec_requestOf] at e
  refine atPort_keeps P call _ s t h (takeWrite_keeps P blind _ _ _ s h fun _ received => ?_) e
  rcases respond_cases kind call.port (serve kind call.port received) s with
    ⟨status, answered⟩ | ⟨done, admitted, served, answered⟩
  · rw [answered]
    exact blind _ _ h
  · rw [answered]
    exact blind _ _ (own received done admitted served)

/-- The log holds a record of a FATAL kind. -/
def State.HoldsFatal (s : State) : Prop := ∃ r ∈ s.faults, r.kind.fatal

/-- From s the mode has not become ACTIVE, and has become SAFE only with a FATAL record in the log. -/
def FallsByFatal (s t : State) : Prop :=
  (s.mode = .safe → t.mode = .safe) ∧ (s.mode = .active → t.mode = .safe → t.HoldsFatal)

theorem FallsByFatal.of_log {s t u : State} (h : FallsByFatal s t) (mode : u.mode = t.mode)
    (kept : t.HoldsFatal → u.HoldsFatal) : FallsByFatal s u :=
  ⟨fun safe => mode.trans (h.1 safe), fun active safe => kept (h.2 active (mode.symm.trans safe))⟩

theorem FallsByFatal.of_same {s t u : State} (h : FallsByFatal s t) (mode : u.mode = t.mode)
    (faults : u.faults = t.faults) : FallsByFatal s u :=
  h.of_log mode fun held => by rw [State.HoldsFatal, faults]; exact held

/-! ## A FATAL record stays -/

theorem HoldsFatal.map {log : List FaultRecord} {f : FaultRecord → FaultRecord} (kind : ∀ r, (f r).kind = r.kind)
    (held : ∃ r ∈ log, r.kind.fatal) : ∃ r ∈ log.map f, r.kind.fatal := by
  obtain ⟨r, hr, fatal⟩ := held
  exact ⟨f r, List.mem_map_of_mem hr, (kind r).symm ▸ fatal⟩

theorem occur_holdsFatal (kind : FaultKind) (n : Nat) (v : Option Int) {s : State} (held : s.HoldsFatal) :
    (occur kind n v s).HoldsFatal := by
  cases known : logHolds s.faults kind n with
  | false =>
    rw [occur_first _ _ _ _ known]
    obtain ⟨r, hr, fatal⟩ := held
    exact ⟨r, List.mem_append_left _ hr, fatal⟩
  | true =>
    rw [occur_again _ _ _ _ known]
    exact HoldsFatal.map (fun r => by split <;> rfl) held

theorem endCondition_holdsFatal (kind : FaultKind) (n : Nat) {s : State} (held : s.HoldsFatal) :
    (endCondition kind n s).HoldsFatal := HoldsFatal.map (fun r => by split <;> rfl) held

section

variable {s t : State} (h : FallsByFatal s t)

include h

theorem FallsByFatal.occur {kind : FaultKind} {n : Nat} {v : Option Int} {u : State}
    (same : (u.mode, u.faults) = (t.mode, t.faults)) : FallsByFatal s (occur kind n v u) :=
  (h.of_same (congrArg Prod.fst same) (congrArg Prod.snd same)).of_log
    ((occur_logged kind n v u).same State.mode fun _ => rfl) (occur_holdsFatal kind n v)

theorem FallsByFatal.endCondition {kind : FaultKind} {n : Nat} {u : State}
    (same : (u.mode, u.faults) = (t.mode, t.faults)) : FallsByFatal s (endCondition kind n u) :=
  (h.of_same (congrArg Prod.fst same) (congrArg Prod.snd same)).of_log rfl (endCondition_holdsFatal kind n)

theorem FallsByFatal.raise {k : NoticeKind} : FallsByFatal s (raise k t) := h

theorem FallsByFatal.compareLine (l : LineId) (event : Comparison) {u : State}
    (same : (u.mode, u.faults) = (t.mode, t.faults)) : FallsByFatal s (compareLine l event u) := by
  unfold Machine.compareLine
  dsimp only
  split
  · split
    · exact h.of_same (congrArg Prod.fst same) (congrArg Prod.snd same)
    · exact h.of_same (congrArg Prod.fst same) (congrArg Prod.snd same)
  · split
    · exact h.endCondition same
    · exact h.of_same (congrArg Prod.fst same) (congrArg Prod.snd same)

end

theorem FallsByFatal.deriveLine (fresh : Bool) (l : LineId) {s t : State} (h : FallsByFatal s t) :
    FallsByFatal s (deriveLine fresh l t) := by
  unfold Machine.deriveLine
  dsimp only
  split
  · exact h.compareLine l .driven rfl
  · exact h

theorem FallsByFatal.leaveZone {z : ZoneId} {v : Zone} {s t : State} (h : FallsByFatal s t) :
    FallsByFatal s (leaveZone z v t) := by
  have ended : FallsByFatal s
      (match v.state with
      | .tripped => Machine.raise .trip (Machine.endCondition .zoneTrip z.number t)
      | .off => t
      | .starting => t
      | .active => t) := by
    split
    · exact (h.endCondition (kind := .zoneTrip) (n := z.number) rfl).raise
    · exact h
    · exact h
    · exact h
  unfold Machine.leaveZone
  dsimp only
  split
  · exact ended
  · exact ended

/-- Every move but those of ACTIVATE, DEACTIVATE and CLEAR_FAULTS leaves the mode as this says. -/
theorem fallsByFatal_moves (s : State) :
    KeptByMoves [.activate, .deactivate, .clearFaults] (fun _ => True) (FallsByFatal s) where
  unseen t u same h := h.of_same same.mode same.faults
  raises _ _ h := h
  resolves d t h := h.of_same ((resolve_offered d t).same State.mode fun _ => rfl)
    ((resolve_offered d t).same State.faults fun _ => rfl)
  account d a t h := by unfold storeAccount; split <;> exact h
  overruns _ _ h := h.occur rfl
  starts _ _ _ _ h _ _ _ := h
  tempStays _ _ _ h _ _ := h
  tempFails _ _ _ _ h _ _ := h.occur rfl
  tempRecovers _ _ _ h _ _ := h.endCondition rfl
  powerFails _ _ _ h _ := h.occur rfl
  powerRecovers _ _ _ h _ := h.endCondition rfl
  excessBegins _ _ _ _ h _ := h.occur rfl
  excessEnds _ _ _ h _ := h.endCondition rfl
  zoneTrips z v t h := (h.occur (u := setZoneRecord z _ t) rfl).raise
  zoneRecovers z t h := (h.endCondition (u := setZoneRecord z _ t) rfl).raise
  zoneMoves _ _ _ h := h
  zoneLeaves _ _ _ h _ _ _ _ := FallsByFatal.leaveZone h
  zoneStored _ _ _ h _ _ := h
  zoneEstimates _ _ _ h _ _ := h
  blindBegins _ _ _ h := h.occur rfl
  blindEnds _ _ _ h := h.endCondition rfl
  takes l asserted t h := by
    unfold takenLevel
    dsimp only
    split <;> exact h
  inputConfig _ _ _ _ h := h
  posture _ _ h := h
  drops _ h := h
  hint _ _ _ h := h
  falls t h active fatal := ⟨fun _ => rfl, fun _ _ => fatal⟩
  activates taken := absurd (by simp) taken
  deactivates taken := absurd (by simp) taken
  watchTrips _ _ _ h := h.occur rfl
  watchEnds _ _ h := h.endCondition rfl
  compares _ _ _ h := h.compareLine _ _ rfl
  sticks _ _ h := h.occur rfl
  ends fresh t h := by
    have derived := (((h.deriveLine (fresh == some .thr0) .thr0).deriveLine (fresh == some .thr1) .thr1).deriveLine
      (fresh == some .thr2) .thr2).deriveLine (fresh == some .thr3) .thr3
    unfold endEventWith
    dsimp only
    split <;> exact derived
  clearNotices _ _ _ _ _ h := h
  setNoticeMask _ _ _ _ _ h := h
  clearFaults taken := absurd (by simp) taken

/-- DEACTIVATE does not make the mode ACTIVE. -/
theorem ownDeactivate_mode_safe {s : State} (safe : s.mode = .safe) (u : Unit) :
    (ownDeactivate u s).1.mode = .safe := by
  unfold ownDeactivate
  rw [safe]
  exact safe

/-- ACTIVATE does not make the mode SAFE. -/
theorem ownActivate_mode_active {s : State} (active : s.mode = .active) (u : Unit) :
    (ownActivate u s).1.mode = .active := by
  unfold ownActivate
  rw [active]
  exact active

/-- Settles O44: the moves of every other command leave the mode or leave ACTIVE with a FATAL record. -/
theorem modeChangesOnlyAsNamed : Obligations.ModeChangesOnlyAsNamed := by
  intro c s t e
  have blind : ∀ (m : Mode) (u : State) (l), u.mode = m → ({ u with links := l } : State).mode = m := fun _ _ _ h => h
  by_cases reset : IsReset c
  · refine ⟨fun _ active => ?_, fun _ _ => .inl reset⟩
    obtain ⟨edge, pins, lines, rfl⟩ := reset
    cases edge <;> cases e <;> cases active
  by_cases activate : ∃ call body, c = .activate call body
  · refine ⟨fun _ _ => activate, fun active safe => ?_⟩
    obtain ⟨call, body, rfl⟩ := activate
    have still : t.mode = .active :=
      request_keeps (kind := .activate) (blind _) active (fun received done _ served => by
      obtain ⟨u, -, rfl⟩ := served_eq_some.mp served
      exact ownActivate_mode_active active u) e
    cases still.symm.trans safe
  by_cases deactivate : ∃ call body, c = .deactivate call body
  · refine ⟨fun safe active => ?_, fun _ _ => .inr (.inl deactivate)⟩
    obtain ⟨call, body, rfl⟩ := deactivate
    have still : t.mode = .safe :=
      request_keeps (kind := .deactivate) (blind _) safe (fun received done _ served => by
      obtain ⟨u, -, rfl⟩ := served_eq_some.mp served
      exact ownDeactivate_mode_safe safe u) e
    cases still.symm.trans active
  by_cases clear : ∃ call body, c = .clearFaults call body
  · obtain ⟨call, body, rfl⟩ := clear
    have same : t.mode = s.mode := request_keeps (kind := .clearFaults) (blind _) rfl (fun received done _ served => by
      obtain ⟨u, -, rfl⟩ := served_eq_some.mp served
      rfl) e
    rw [same]
    exact ⟨fun safe active => (by cases safe.symm.trans active), fun active safe => (by cases active.symm.trans safe)⟩
  · have falls : FallsByFatal s t := by
      refine (fallsByFatal_moves s).exec reset (fun kind call body own exempt => ?_) trivial
        ⟨id, fun active safe => by cases active.symm.trans safe⟩ e
      simp only [List.mem_cons, List.not_mem_nil, or_false] at exempt
      rcases exempt with rfl | rfl | rfl
      · exact activate ⟨call, body, own⟩
      · exact deactivate ⟨call, body, own⟩
      · exact clear ⟨call, body, own⟩
    exact ⟨fun safe active => (by cases (falls.1 safe).symm.trans active),
      fun active safe => .inr (.inr (falls.2 active safe))⟩

end Sys2Proof.Machine

/-! # Conditions: what the log reports is what the owners are in (R10, R19, R62, R63, R106, R126, R139, R146) -/

namespace Sys2Proof.Machine

open Sys2Proof

/-- A condition, by its owner. -/
inductive Condition where
  | tempFailed (c : TempId)
  | powerFailed (n : PowerId)
  | zoneTripped (z : ZoneId)
  | zoneBlind (z : ZoneId)
  | excess (d : DomainId)
  | lineStuck (l : LineId)
  | supplyTripped
  deriving DecidableEq

/-- The kind and the subject under which a condition is reported (R142). -/
def Condition.pair : Condition → FaultKind × Nat
  | .tempFailed c => (.tchFailed, c.number)
  | .powerFailed n => (.pchFailed, n.number)
  | .zoneTripped z => (.zoneTrip, z.number)
  | .zoneBlind z => (.zoneBlind, z.number)
  | .excess d => (.excess, d.number)
  | .lineStuck l => (.lineStuck, l.number)
  | .supplyTripped => (.supplyTrip, 0)

/-- The owner is in the state that the condition reports. -/
def Condition.holds (s : State) : Condition → Prop
  | .tempFailed c => (s.temps.get c).state = .failed
  | .powerFailed n => (s.powers.get n).state = .failed
  | .zoneTripped z => (s.zones.get z).state = .tripped
  | .zoneBlind z => (s.zones.get z).blind = true
  | .excess d => (s.compliance.get d).state = .excess
  | .lineStuck l => (s.lines.get l).stuck = true
  | .supplyTripped => s.watch.state = .tripped

theorem TempId.number_injective : Function.Injective TempId.number := by
  intro a b same
  have found := TempId.ofNumber_number a
  rwa [same, TempId.ofNumber_number, Option.some.injEq, eq_comm] at found

theorem PowerId.number_injective : Function.Injective PowerId.number := by
  intro a b same
  have found := PowerId.ofNumber_number a
  rwa [same, PowerId.ofNumber_number, Option.some.injEq, eq_comm] at found

theorem ZoneId.number_injective : Function.Injective ZoneId.number := by
  intro a b same
  have found := ZoneId.ofNumber_number a
  rwa [same, ZoneId.ofNumber_number, Option.some.injEq, eq_comm] at found

theorem DomainId.number_injective : Function.Injective DomainId.number := by
  intro a b same
  have found := DomainId.ofNumber_number a
  rwa [same, DomainId.ofNumber_number, Option.some.injEq, eq_comm] at found

theorem LineId.number_injective : Function.Injective LineId.number := by
  intro a b same
  have found := LineId.ofNumber_number a
  rwa [same, LineId.ofNumber_number, Option.some.injEq, eq_comm] at found

theorem Condition.pair_injective : Function.Injective Condition.pair := by
  intro x y same
  cases x <;> cases y <;> simp only [Condition.pair, Prod.mk.injEq, reduceCtorEq, false_and, true_and] at same
  case tempFailed.tempFailed => rw [TempId.number_injective same]
  case powerFailed.powerFailed => rw [PowerId.number_injective same]
  case zoneTripped.zoneTripped => rw [ZoneId.number_injective same]
  case zoneBlind.zoneBlind => rw [ZoneId.number_injective same]
  case excess.excess => rw [DomainId.number_injective same]
  case lineStuck.lineStuck => rw [LineId.number_injective same]
  case supplyTripped.supplyTripped => rfl

theorem Condition.isCondition (x : Condition) : x.pair.1.isCondition = true := by cases x <;> rfl

theorem conditionsSafe_iff (s : State) :
    s.ConditionsSafe ↔ ∀ x : Condition, presentIn s.faults x.pair.1 x.pair.2 ↔ x.holds s := by
  constructor
  · rintro ⟨temps, powers, tripped, blind, excess, stuck, watch⟩ x
    cases x with
    | tempFailed c => exact temps c
    | powerFailed n => exact powers n
    | zoneTripped z => exact tripped z
    | zoneBlind z => exact blind z
    | excess d => exact excess d
    | lineStuck l => exact stuck l
    | supplyTripped => exact watch
  · intro all
    exact ⟨fun c => all (.tempFailed c), fun n => all (.powerFailed n), fun z => all (.zoneTripped z),
      fun z => all (.zoneBlind z), fun d => all (.excess d), fun l => all (.lineStuck l), all .supplyTripped⟩

/-! ## What the log says after an occurrence and after an end -/

/-- An occurrence makes its own condition present, if its kind is one, and no other present or absent (R144, R145). -/
theorem presentIn_occur (kind : FaultKind) (n : Nat) (v : Option Int) (s : State) (k : FaultKind) (m : Nat) :
    presentIn (occur kind n v s).faults k m ↔
      (kind.isCondition = true ∧ k = kind ∧ m = n) ∨ presentIn s.faults k m := by
  cases held : logHolds s.faults kind n with
  | false =>
    rw [occur_first _ _ _ _ held]
    constructor
    · rintro ⟨r, hr, rfl, rfl, present⟩
      rcases List.mem_append.mp hr with before | first
      · exact .inr ⟨r, before, rfl, rfl, present⟩
      · obtain rfl := List.mem_singleton.mp first
        refine .inl ⟨?_, rfl, rfl⟩
        by_contra event
        simp [newRecord, event] at present
    · rintro (⟨condition, rfl, rfl⟩ | ⟨r, hr, rfl, rfl, present⟩)
      · exact ⟨newRecord k m v s.uptime, by simp, rfl, rfl, by simp [newRecord, condition]⟩
      · exact ⟨r, List.mem_append_left _ hr, rfl, rfl, present⟩
  | true =>
    rw [occur_again _ _ _ _ held]
    constructor
    · rintro ⟨r, hr, rfl, rfl, present⟩
      obtain ⟨r, inside, rfl⟩ := List.mem_map.mp hr
      by_cases own : r.isOf kind n = true
      · rw [if_pos own] at present ⊢
        obtain ⟨rfl, rfl⟩ := (isOf_iff r kind n).mp own
        by_cases condition : r.kind.isCondition = true
        · exact .inl ⟨condition, rfl, rfl⟩
        · exact .inr ⟨r, inside, rfl, rfl, by simpa [FaultRecord.recur, condition] using present⟩
      · rw [if_neg own] at present ⊢
        exact .inr ⟨r, inside, rfl, rfl, present⟩
    · rintro (⟨condition, rfl, rfl⟩ | ⟨r, hr, rfl, rfl, present⟩)
      · obtain ⟨r, hr, rfl, rfl⟩ := (logHolds_iff _ _ _).mp held
        refine ⟨_, List.mem_map_of_mem hr, ?_⟩
        rw [if_pos ((isOf_iff r _ _).mpr ⟨rfl, rfl⟩)]
        exact ⟨rfl, rfl, by simp [FaultRecord.recur, condition]⟩
      · refine ⟨_, List.mem_map_of_mem hr, ?_⟩
        split
        · refine ⟨rfl, rfl, ?_⟩
          simp [FaultRecord.recur, present]
        · exact ⟨rfl, rfl, present⟩

/-- An end makes its own condition absent, and no other present or absent (R146). -/
theorem presentIn_endCondition (kind : FaultKind) (n : Nat) (s : State) (k : FaultKind) (m : Nat) :
    presentIn (endCondition kind n s).faults k m ↔ presentIn s.faults k m ∧ ¬(k = kind ∧ m = n) := by
  constructor
  · rintro ⟨r, hr, rfl, rfl, present⟩
    obtain ⟨r, inside, rfl⟩ := List.mem_map.mp hr
    by_cases own : r.isOf kind n = true
    · rw [if_pos own] at present
      cases present
    · rw [if_neg own] at present ⊢
      exact ⟨⟨r, inside, rfl, rfl, present⟩, fun same => own ((isOf_iff r kind n).mpr same)⟩
  · rintro ⟨⟨r, hr, rfl, rfl, present⟩, other⟩
    refine ⟨_, List.mem_map_of_mem hr, ?_⟩
    rw [if_neg fun own => other ((isOf_iff r kind n).mp own)]
    exact ⟨rfl, rfl, present⟩

theorem presentIn_kept (log : List FaultRecord) (k : FaultKind) (m : Nat) :
    presentIn (kept log) k m ↔ presentIn log k m := by
  constructor
  · rintro ⟨r, hr, same⟩
    exact ⟨r, List.mem_of_mem_filter hr, same⟩
  · rintro ⟨r, hr, rfl, rfl, present⟩
    exact ⟨r, List.mem_filter.mpr ⟨hr, by simp [present]⟩, rfl, rfl, present⟩

/-! ## The moves -/

/-- The owners do not see the log. -/
theorem Logged.holds_iff {s t : State} (h : Logged s t) (x : Condition) : x.holds t ↔ x.holds s :=
  iff_of_eq (h.same (fun u => x.holds u) fun _ => by cases x <;> rfl)

section

variable {s t : State} (safe : s.ConditionsSafe) (log : t.faults = s.faults)

include safe log

theorem State.ConditionsSafe.of_owners (owners : ∀ x : Condition, x.holds t ↔ x.holds s) : t.ConditionsSafe := by
  rw [conditionsSafe_iff] at safe ⊢
  intro x
  rw [log, owners, safe]

/-- A condition's owner comes to the state that it reports, and it occurs. -/
theorem State.ConditionsSafe.begins (x : Condition) (v : Option Int) (own : x.holds t)
    (others : ∀ y : Condition, y ≠ x → (y.holds t ↔ y.holds s)) :
    (occur x.pair.1 x.pair.2 v t).ConditionsSafe := by
  rw [conditionsSafe_iff] at safe ⊢
  intro y
  rw [presentIn_occur, log, (occur_logged _ _ _ _).holds_iff]
  by_cases same : y = x
  · subst same
    simp [own, y.isCondition]
  · have pairs : ¬(y.pair.1 = x.pair.1 ∧ y.pair.2 = x.pair.2) := fun h =>
      same (Condition.pair_injective (Prod.ext h.1 h.2))
    rw [others y same, ← safe y]
    tauto

/-- A condition's owner leaves the state that it reports, and it ends. -/
theorem State.ConditionsSafe.ends (x : Condition) (own : ¬x.holds t)
    (others : ∀ y : Condition, y ≠ x → (y.holds t ↔ y.holds s)) :
    (endCondition x.pair.1 x.pair.2 t).ConditionsSafe := by
  rw [conditionsSafe_iff] at safe ⊢
  intro y
  rw [presentIn_endCondition, log, (endCondition_logged _ _ _).holds_iff]
  by_cases same : y = x
  · subst same
    simp [own]
  · have pairs : ¬(y.pair.1 = x.pair.1 ∧ y.pair.2 = x.pair.2) := fun h =>
      same (Condition.pair_injective (Prod.ext h.1 h.2))
    rw [others y same, ← safe y]
    tauto

end

/-! ## Owners of replaced records -/

section

variable {s : State} {y : Condition}

theorem holds_setTempRecord {c : TempId} {w : TempChannel}
    (own : y = .tempFailed c → (w.state = .failed ↔ (s.temps.get c).state = .failed)) :
    y.holds (setTempRecord c w s) ↔ y.holds s := by
  cases y with
  | tempFailed other =>
    by_cases same : other = c
    · subst same
      simpa [Condition.holds] using own rfl
    · simp [Condition.holds, same]
  | _ => rfl

theorem holds_setPowerRecord {n : PowerId} {w : PowerChannel}
    (own : y = .powerFailed n → (w.state = .failed ↔ (s.powers.get n).state = .failed)) :
    y.holds (setPowerRecord n w s) ↔ y.holds s := by
  cases y with
  | powerFailed other =>
    by_cases same : other = n
    · subst same
      simpa [Condition.holds] using own rfl
    · simp [Condition.holds, same]
  | _ => rfl

theorem holds_setZoneRecord {z : ZoneId} {w : Zone}
    (tripped : y = .zoneTripped z → (w.state = .tripped ↔ (s.zones.get z).state = .tripped))
    (blind : y = .zoneBlind z → w.blind = (s.zones.get z).blind) :
    y.holds (setZoneRecord z w s) ↔ y.holds s := by
  cases y with
  | zoneTripped other =>
    by_cases same : other = z
    · subst same
      simpa [Condition.holds] using tripped rfl
    · simp [Condition.holds, same]
  | zoneBlind other =>
    by_cases same : other = z
    · subst same
      simp [Condition.holds, blind rfl]
    · simp [Condition.holds, same]
  | _ => rfl

theorem holds_setCompliance {d : DomainId} {c : Compliance}
    (own : y = .excess d → c.state = (s.compliance.get d).state) : y.holds (setCompliance d c s) ↔ y.holds s := by
  cases y with
  | excess other =>
    by_cases same : other = d
    · subst same
      simp [Condition.holds, own rfl]
    · simp [Condition.holds, same]
  | _ => rfl

theorem holds_setLineRecord {l : LineId} {w : ThrottleLine}
    (own : y = .lineStuck l → w.stuck = (s.lines.get l).stuck) : y.holds (setLineRecord l w s) ↔ y.holds s := by
  cases y with
  | lineStuck other =>
    by_cases same : other = l
    · subst same
      simp [Condition.holds, own rfl]
    · simp [Condition.holds, same]
  | _ => rfl

theorem holds_setWatch {w : TripWatch} (other : y ≠ .supplyTripped) :
    y.holds { s with watch := w } ↔ y.holds s := by
  cases y with
  | supplyTripped => exact absurd rfl other
  | _ => rfl

end

theorem SameSeen.holds_iff {s t : State} (h : SameSeen s t) (x : Condition) : x.holds t ↔ x.holds s := by
  cases x with
  | tempFailed c => exact h.temps c
  | powerFailed n => exact h.powers n
  | zoneTripped z => exact h.tripped z
  | zoneBlind z => exact iff_of_eq (congrArg (· = true) (h.blind z))
  | excess d => exact iff_of_eq (congrArg (· = ComplianceState.excess) (h.compliance d))
  | lineStuck l => exact iff_of_eq (congrArg (· = true) (h.stuck l))
  | supplyTripped => exact h.watch

/-! ## The moves -/

/-- A resolution leaves every compliance state. -/
theorem resolve_complianceState (d : DomainId) (s : State) (d' : DomainId) :
    ((resolve d s).compliance.get d').state = (s.compliance.get d').state := by
  unfold resolve startSettle
  dsimp only
  split
  · rfl
  · split
    · split
      · rfl
      · refine PerDomain.apply_get_set (f := Compliance.state) (v := s.compliance) (i := d) ?_ d'
        rfl
    · rfl

theorem resolve_conditionsSafe {s : State} (safe : s.ConditionsSafe) (d : DomainId) : (resolve d s).ConditionsSafe := by
  refine safe.of_owners ((resolve_offered d s).same State.faults fun _ => rfl) fun x => ?_
  cases x with
  | excess d' => exact iff_of_eq (congrArg (· = ComplianceState.excess) (resolve_complianceState d s d'))
  | tempFailed c => exact iff_of_eq ((resolve_offered d s).same (Condition.holds · (.tempFailed c)) fun _ => rfl)
  | powerFailed n => exact iff_of_eq ((resolve_offered d s).same (Condition.holds · (.powerFailed n)) fun _ => rfl)
  | zoneTripped z => exact iff_of_eq ((resolve_offered d s).same (Condition.holds · (.zoneTripped z)) fun _ => rfl)
  | zoneBlind z => exact iff_of_eq ((resolve_offered d s).same (Condition.holds · (.zoneBlind z)) fun _ => rfl)
  | lineStuck l => exact iff_of_eq ((resolve_offered d s).same (Condition.holds · (.lineStuck l)) fun _ => rfl)
  | supplyTripped => exact iff_of_eq ((resolve_offered d s).same (Condition.holds · .supplyTripped) fun _ => rfl)

/-- An overrun is an event, no condition (R4). -/
theorem overrun_conditionsSafe {s : State} (safe : s.ConditionsSafe) (n : Nat) :
    (occur .convOverrun n none s).ConditionsSafe := by
  rw [conditionsSafe_iff] at safe ⊢
  intro x
  rw [presentIn_occur, (occur_logged _ _ _ _).holds_iff, ← safe x]
  simp [FaultKind.isCondition]

theorem compareLine_conditionsSafe {s : State} (safe : s.ConditionsSafe) (l : LineId) (event : Comparison) :
    (compareLine l event s).ConditionsSafe := by
  unfold compareLine
  dsimp only
  split
  · split
    · exact safe.of_owners rfl fun _ => holds_setLineRecord fun _ => rfl
    · exact safe.of_owners rfl fun _ => holds_setLineRecord fun _ => rfl
  · split
    · exact safe.ends (t := setLineRecord l _ s) rfl (.lineStuck l) (by simp [Condition.holds])
        fun y other => holds_setLineRecord fun own => absurd own other
    · exact safe.of_owners rfl fun _ => holds_setLineRecord fun _ => rfl

theorem deriveLine_conditionsSafe {s : State} (safe : s.ConditionsSafe) (fresh : Bool) (l : LineId) :
    (deriveLine fresh l s).ConditionsSafe := by
  have stored : ∀ view, (setLineRecord l ((s.lines.get l).derived view) s).ConditionsSafe := fun _ =>
    safe.of_owners rfl fun _ => holds_setLineRecord fun _ => rfl
  unfold deriveLine
  dsimp only
  split
  · exact compareLine_conditionsSafe (stored _) l .driven
  · exact stored _

theorem endEventWith_conditionsSafe {s : State} (safe : s.ConditionsSafe) (fresh : Option LineId) :
    (endEventWith fresh s).ConditionsSafe := by
  have derived := deriveLine_conditionsSafe (deriveLine_conditionsSafe (deriveLine_conditionsSafe
    (deriveLine_conditionsSafe safe (fresh == some .thr0) .thr0) (fresh == some .thr1) .thr1)
    (fresh == some .thr2) .thr2) (fresh == some .thr3) .thr3
  unfold endEventWith
  dsimp only
  split <;> exact derived

/-- A zone that leaves: its trip ends, if it was tripped (R71, R72). -/
theorem leaveZone_conditionsSafe {s : State} (safe : s.ConditionsSafe) {z : ZoneId} {w : Zone}
    (free : w.state ≠ .tripped)
    (blind : w.blind = (s.zones.get z).blind) :
    (leaveZone z (s.zones.get z) (setZoneRecord z w s)).ConditionsSafe := by
  have stays : (s.zones.get z).state ≠ .tripped → (setZoneRecord z w s).ConditionsSafe := fun was =>
    safe.of_owners rfl fun _ => holds_setZoneRecord (fun _ => iff_of_false free was) fun _ => blind
  have ended : (endCondition .zoneTrip z.number (setZoneRecord z w s)).ConditionsSafe := by
    refine safe.ends (t := setZoneRecord z w s) rfl (.zoneTripped z)
      (by simpa [Condition.holds] using free) fun y other => ?_
    exact holds_setZoneRecord (fun own => absurd own other) fun _ => blind
  unfold leaveZone
  dsimp only
  cases state : (s.zones.get z).state with
  | tripped => split <;> exact ended
  | off => split <;> exact stays (by simp [state])
  | starting => split <;> exact stays (by simp [state])
  | active => split <;> exact stays (by simp [state])

/-- Every move keeps the conditions: an owner and what it reports change together. A channel that SET_CHANNEL enables is
DISABLED before, by the channels' invariant. -/
theorem conditionsSafe_moves : KeptByMoves [] State.ChannelsSafe State.ConditionsSafe where
  unseen _ _ same safe := safe.of_owners same.faults same.holds_iff
  raises _ _ safe := safe
  resolves d _ safe := resolve_conditionsSafe safe d
  account d a s safe := by unfold storeAccount; split <;> exact safe
  overruns n _ safe := overrun_conditionsSafe safe n
  starts c w s channels safe disabled free _ := by
    obtain ⟨state, -⟩ := channels.temp c
    exact safe.of_owners rfl fun _ => holds_setTempRecord fun _ => iff_of_false free (by simp [state.mpr disabled])
  tempStays c w s safe same _ := safe.of_owners rfl fun _ => holds_setTempRecord fun _ => same
  tempFails c w v s safe failed _ := safe.begins (t := setTempRecord c w s) rfl (.tempFailed c) v
    (by simpa [Condition.holds] using failed) fun _ other => holds_setTempRecord fun own => absurd own other
  tempRecovers c w s safe free _ := safe.ends (t := setTempRecord c w s) rfl (.tempFailed c)
    (by simpa [Condition.holds] using free) fun _ other => holds_setTempRecord fun own => absurd own other
  powerFails n w s safe failed := safe.begins (t := setPowerRecord n w s) rfl (.powerFailed n) none
    (by simpa [Condition.holds] using failed) fun _ other => holds_setPowerRecord fun own => absurd own other
  powerRecovers n w s safe free := safe.ends (t := setPowerRecord n w s) rfl (.powerFailed n)
    (by simpa [Condition.holds] using free) fun _ other => holds_setPowerRecord fun own => absurd own other
  excessBegins d c v s safe excess := safe.begins (t := setCompliance d c s) rfl (.excess d) v
    (by simpa [Condition.holds] using excess) fun _ other => holds_setCompliance fun own => absurd own other
  excessEnds d c s safe normal := safe.ends (t := setCompliance d c s) rfl (.excess d)
    (by simp [Condition.holds, normal]) fun _ other => holds_setCompliance fun own => absurd own other
  zoneTrips z v s safe := safe.begins (t := setZoneRecord z _ s) rfl (.zoneTripped z) v
    (by simp [Condition.holds]) fun _ other => holds_setZoneRecord (fun own => absurd own other) fun _ => rfl
  zoneRecovers z s safe := safe.ends (t := setZoneRecord z _ s) rfl (.zoneTripped z)
    (by simp [Condition.holds]) fun _ other => holds_setZoneRecord (fun own => absurd own other) fun _ => rfl
  zoneMoves z position s safe := by
    unfold moveTo
    exact safe.of_owners (t := setZoneRecord z _ s) rfl fun _ => holds_setZoneRecord (fun _ => Iff.rfl) fun _ => rfl
  zoneLeaves z w s safe free _ blind _ := leaveZone_conditionsSafe safe free blind
  zoneStored z cfg s safe _ _ := safe.of_owners rfl fun _ => holds_setZoneRecord (fun _ => Iff.rfl) fun _ => rfl
  zoneEstimates z sum s safe _ _ := safe.of_owners rfl fun _ =>
    holds_setZoneRecord (fun _ => Zone.estimated_tripped _ _) fun _ => Zone.estimated_blind _ _
  blindBegins z degraded s safe := safe.begins (t := setZoneRecord z _ s) rfl (.zoneBlind z) none
    (by simp [Condition.holds]) fun _ other => holds_setZoneRecord (fun _ => Iff.rfl) fun own => absurd own other
  blindEnds z degraded s safe := safe.ends (t := setZoneRecord z _ s) rfl (.zoneBlind z)
    (by simp [Condition.holds]) fun _ other => holds_setZoneRecord (fun _ => Iff.rfl) fun own => absurd own other
  takes l asserted s safe := by
    unfold takenLevel
    dsimp only
    split <;> exact safe
  inputConfig _ _ _ _ safe := safe
  posture _ _ safe := safe
  drops _ safe := safe
  hint _ _ _ safe := safe
  falls _ safe _ _ := safe
  activates _ _ safe _ := safe
  deactivates _ _ safe _ := safe
  watchTrips power v s safe := safe.begins (t := { s with watch := ⟨.tripped, power⟩ }) rfl .supplyTripped v
    rfl fun _ other => holds_setWatch other
  watchEnds power s safe := safe.ends (t := { s with watch := ⟨.clear, power⟩ }) rfl .supplyTripped
    (by simp [Condition.holds])
    fun _ other => holds_setWatch other
  compares l event _ safe := compareLine_conditionsSafe safe l event
  sticks l s safe := safe.begins (t := setLineRecord l _ s) rfl (.lineStuck l) none (by simp [Condition.holds])
    fun _ other => holds_setLineRecord fun own => absurd own other
  ends fresh _ safe := endEventWith_conditionsSafe safe fresh
  clearNotices _ _ _ _ _ safe := safe
  setNoticeMask _ _ _ _ _ safe := safe
  clearFaults _ _ s safe := by
    rw [conditionsSafe_iff] at safe ⊢
    intro x
    rw [ownClearFaults, presentIn_kept, safe]
    cases x <;> rfl

/-- Settles O59: the moves keep the conditions, and after a reset there is neither a record nor a reason for one. -/
theorem everyStepKeepsTheConditions : Obligations.EveryStepKeepsTheConditions := by
  intro s t channels safe e
  have command : ∀ i (u v : State), u.ChannelsSafe ∧ u.ConditionsSafe → exec i u = .next v →
      v.ChannelsSafe ∧ v.ConditionsSafe := by
    rintro i u v ⟨channels, safe⟩ e
    refine ⟨exec_keepsChannels i u v channels e, ?_⟩
    by_cases reset : IsReset i
    · obtain ⟨edge, pins, lines, rfl⟩ := reset
      cases edge <;> cases e <;> exact conditionsSafe_reset _
    · exact conditionsSafe_moves.exec reset (fun _ _ _ _ => List.not_mem_nil) channels safe e
  exact (step_keeps (P := fun u => u.ChannelsSafe ∧ u.ConditionsSafe) (fun _ _ h => h)
    (fun u h => ⟨h.1.elapse 1, conditionsSafe_moves.unseen u _ (.elapse 1 u) h.2⟩) command s t ⟨channels, safe⟩ e).2

end Sys2Proof.Machine

/-! # Every change that has a notice kind raises it (R156 to R158) -/

namespace Sys2Proof.Machine

open Sys2Proof

/-- The state of a line is one that its trigger admits an edge to (R157). -/
def InputLine.admitted (v : InputLine) : Prop :=
  match v.cfg.trigger with
  | .none => False
  | .rise => v.state = .asserted
  | .fall => v.state = .deasserted
  | .both => True

/-- From s to t each change that has a notice kind has raised it; a change of the hint slot to empty counts as one only
where `drops` holds. -/
structure Announces (drops : Prop) (s t : State) : Prop where
  raises : RaisesOnly s t
  grants : t.grants = s.grants ∨ Raised .grant t
  effective : t.effective = s.effective ∨ Raised .posture t
  hint : drops → s.hint.isSome = true → t.hint.isSome = true ∨ Raised .hintDropped t
  position : ∀ z, (t.zones.get z).position = (s.zones.get z).position ∨ Raised .ladder t
  tripped : ∀ z, ((t.zones.get z).state = .tripped ↔ (s.zones.get z).state = .tripped) ∨ Raised .trip t
  drive : ∀ l, (t.lines.get l).drive = (s.lines.get l).drive ∨ Raised .throttle t
  faults : ∀ r ∈ t.faults, (∃ r' ∈ s.faults, (r'.kind, r'.subject) = (r.kind, r.subject)) ∨ Raised .fault t
  mode : t.mode = s.mode ∨ Raised .mode t
  accounts : ∀ d, (t.accounts.get d).state = (s.accounts.get d).state ∨ Raised .burst t
  triggers : ∀ l, (t.inputs.get l).cfg.trigger = (s.inputs.get l).cfg.trigger
  determined : ∀ l, (s.inputs.get l).state ≠ .undetermined → (t.inputs.get l).state ≠ .undetermined
  edges : ∀ l, (s.inputs.get l).state ≠ .undetermined →
      (t.inputs.get l).state = (s.inputs.get l).state ∨ ¬(t.inputs.get l).admitted ∨ Raised (edgeNotice l) t

theorem RaisesOnly.trans {s t u : State} (h : RaisesOnly s t) (k : RaisesOnly t u) : RaisesOnly s u :=
  Relation.ReflTransGen.trans h k

/-- What is raised stays raised. -/
theorem RaisesOnly.raised {s t : State} (h : RaisesOnly s t) {k : NoticeKind} (raised : Raised k s) : Raised k t :=
  fun p => (h.keeps p).1 k (raised p)

theorem Announces.refl (drops : Prop) (s : State) : Announces drops s s where
  raises := .refl _
  grants := .inl rfl
  effective := .inl rfl
  hint _ held := .inl held
  position _ := .inl rfl
  tripped _ := .inl Iff.rfl
  drive _ := .inl rfl
  faults r inside := .inl ⟨r, inside, rfl⟩
  mode := .inl rfl
  accounts _ := .inl rfl
  triggers _ := rfl
  determined _ := id
  edges _ _ := .inl rfl

theorem Announces.trans {drops : Prop} {s t u : State} (h : Announces drops s t) (k : Announces drops t u) :
    Announces drops s u where
  raises := h.raises.trans k.raises
  grants := k.grants.elim (fun same => same ▸ h.grants.imp id k.raises.raised) .inr
  effective := k.effective.elim (fun same => same ▸ h.effective.imp id k.raises.raised) .inr
  hint want some := (h.hint want some).elim (k.hint want) fun raised => .inr (k.raises.raised raised)
  position z := (k.position z).elim (fun same => same ▸ (h.position z).imp id k.raises.raised) .inr
  tripped z := (k.tripped z).elim (fun same => (h.tripped z).imp same.trans k.raises.raised) .inr
  drive l := (k.drive l).elim (fun same => same ▸ (h.drive l).imp id k.raises.raised) .inr
  faults r hr := by
    rcases k.faults r hr with ⟨r', hr', same⟩ | raised
    · rw [← same]
      exact (h.faults r' hr').imp id k.raises.raised
    · exact .inr raised
  mode := k.mode.elim (fun same => same ▸ h.mode.imp id k.raises.raised) .inr
  accounts d := (k.accounts d).elim (fun same => same ▸ (h.accounts d).imp id k.raises.raised) .inr
  triggers l := (k.triggers l).trans (h.triggers l)
  determined l was := k.determined l (h.determined l was)
  edges l was := by
    rcases k.edges l (h.determined l was) with same | noticed
    · rcases h.edges l was with still | admitted | raised
      · exact .inl (same.trans still)
      · refine .inr (.inl ?_)
        unfold InputLine.admitted at admitted ⊢
        rwa [same, k.triggers l]
      · exact .inr (.inr (k.raises.raised raised))
    · exact .inr noticed

/-! ## Records replaced in front of what announces them -/

/-- A replaced zone record is announced by what comes behind it. -/
theorem Announces.of_zone {drops : Prop} {s u : State} {z : ZoneId} {w : Zone}
    (h : Announces drops (setZoneRecord z w s) u) (position : w.position = (s.zones.get z).position ∨ Raised .ladder u)
    (tripped : (w.state = .tripped ↔ (s.zones.get z).state = .tripped) ∨ Raised .trip u) : Announces drops s u where
  raises := h.raises
  grants := h.grants
  effective := h.effective
  hint := h.hint
  position other := by
    rcases h.position other with same | raised
    · rw [same]
      exact position.imp (fun same => PerZone.apply_get_set (f := Zone.position) same other) id
    · exact .inr raised
  tripped other := by
    rcases h.tripped other with same | raised
    · refine tripped.imp (fun own => same.trans (iff_of_eq ?_)) id
      exact PerZone.apply_get_set (f := fun v : Zone => v.state = .tripped) (propext own) other
    · exact .inr raised
  drive := h.drive
  faults := h.faults
  mode := h.mode
  accounts := h.accounts
  triggers := h.triggers
  determined := h.determined
  edges := h.edges

/-- What the end of an event writes is announced where its drives and its records are. -/
theorem Ended.announces {drops : Prop} {s t : State} (h : Ended s t) (raises : RaisesOnly s t)
    (drive : ∀ l, (t.lines.get l).drive = (s.lines.get l).drive ∨ Raised .throttle t)
    (faults : ∀ r ∈ t.faults, ∃ r' ∈ s.faults, (r'.kind, r'.subject) = (r.kind, r.subject)) : Announces drops s t where
  raises := raises
  grants := .inl (h.same State.grants fun _ => rfl)
  effective := .inl (h.same State.effective fun _ => rfl)
  hint _ some := .inl ((h.same State.hint fun _ => rfl) ▸ some)
  position z := .inl (h.same (fun u => (u.zones.get z).position) fun _ => rfl)
  tripped z := .inl (iff_of_eq (h.same (fun u => (u.zones.get z).state = .tripped) fun _ => rfl))
  drive := drive
  faults r hr := .inl (faults r hr)
  mode := .inl (h.same State.mode fun _ => rfl)
  accounts d := .inl (h.same (fun u => (u.accounts.get d).state) fun _ => rfl)
  triggers l := h.same (fun u => (u.inputs.get l).cfg.trigger) fun _ => rfl
  determined l was := (h.same (fun u => (u.inputs.get l).state) fun _ => rfl).symm ▸ was
  edges l _ := .inl (h.same (fun u => (u.inputs.get l).state) fun _ => rfl)

theorem SameSeen.announces {drops : Prop} {s t : State} (h : SameSeen s t) : Announces drops s t where
  raises := by
    unfold RaisesOnly
    rw [h.notices]
  grants := .inl h.grants
  effective := .inl h.effective
  hint _ some := .inl (h.hint ▸ some)
  position z := .inl (h.position z)
  tripped z := .inl (h.tripped z)
  drive l := .inl (h.drive l)
  faults r hr := .inl ⟨r, h.faults ▸ hr, rfl⟩
  mode := .inl h.mode
  accounts d := .inl (h.accounts d)
  triggers l := (h.inputs l).2
  determined l was := (h.inputs l).1.symm ▸ was
  edges l _ := .inl (h.inputs l).1

/-! ## The moves -/

section

variable {drops : Prop} (s : State)

theorem raise_announces (k : NoticeKind) : Announces drops s (raise k s) :=
  { raises := raise_raisesOnly (.refl s) k, grants := .inl rfl, effective := .inl rfl, hint := fun _ => .inl
    position := fun _ => .inl rfl, tripped := fun _ => .inl Iff.rfl, drive := fun _ => .inl rfl
    faults := fun r inside => .inl ⟨r, inside, rfl⟩, mode := .inl rfl, accounts := fun _ => .inl rfl
    triggers := fun _ => rfl, determined := fun _ => id, edges := fun _ _ => .inl rfl }

theorem endCondition_announces (kind : FaultKind) (n : Nat) : Announces drops s (endCondition kind n s) :=
  { Announces.refl drops s with
    faults := fun r hr => by
      obtain ⟨r', hr', rfl⟩ := List.mem_map.mp hr
      exact .inl ⟨r', hr', by split <;> rfl⟩ }

theorem occur_announces (kind : FaultKind) (n : Nat) (v : Option Int) : Announces drops s (occur kind n v s) := by
  have raises := occur_raisesOnly (.refl s) kind n v
  cases held : logHolds s.faults kind n with
  | false =>
    rw [occur_first _ _ _ _ held] at raises ⊢
    exact { raise_announces s .fault with raises := raises, faults := fun _ _ => .inr (raised_raise _ _) }
  | true =>
    rw [occur_again _ _ _ _ held]
    exact
      { Announces.refl drops s with
        faults := fun r hr => by
          obtain ⟨r', hr', rfl⟩ := List.mem_map.mp hr
          exact .inl ⟨r', hr', by split <;> rfl⟩ }

theorem resolve_announces (d : DomainId) : Announces drops s (resolve d s) := by
  have raises := resolve_raisesOnly (.refl s) d
  unfold resolve startSettle at raises ⊢
  dsimp only at raises ⊢
  split at raises
  · rename_i same
    rw [if_pos same]
    exact .refl drops s
  · rename_i other
    rw [if_neg other]
    split at raises
    · rename_i less
      rw [if_pos less]
      split at raises
      · rename_i none
        rw [if_pos none]
        exact { raise_announces s .grant with raises := raises, grants := .inr (raised_raise .grant _) }
      · rename_i some
        rw [if_neg some]
        exact
          { raise_announces s .grant with
            raises := raises, grants := .inr (raised_raise .grant { s with grants := _ }) }
    · rename_i more
      rw [if_neg more]
      exact { raise_announces s .grant with raises := raises, grants := .inr (raised_raise .grant _) }

theorem storeAccount_announces (d : DomainId) (a : Account) : Announces drops s (storeAccount d a s) := by
  unfold storeAccount
  split
  · rename_i same
    exact
      { Announces.refl drops s with
        accounts := fun d' => .inl (PerDomain.apply_get_set (f := Account.state) same d') }
  · exact
      { raise_announces s .burst with
        accounts := fun _ => .inr (raised_raise _ _) }

theorem moveTo_announces (z : ZoneId) (position : Nat) : Announces drops s (moveTo z position s) :=
  (raise_announces _ .ladder).of_zone (.inr (raised_raise _ _)) (.inl Iff.rfl)

/-- A zone that leaves announces the end of its trip and its move to the bottom (R71, R72). -/
theorem leaveZone_announces {z : ZoneId} {w : Zone} (free : w.state ≠ .tripped) (bottom : w.position = 0) :
    Announces drops s (leaveZone z (s.zones.get z) (setZoneRecord z w s)) := by
  have ended : ∀ u : State, Announces drops u (raise .trip (endCondition .zoneTrip z.number u)) := fun u =>
    (endCondition_announces u .zoneTrip z.number).trans (raise_announces _ .trip)
  unfold leaveZone
  dsimp only
  cases state : (s.zones.get z).state with
  | tripped =>
    dsimp only
    split
    · refine ((ended _).trans (raise_announces _ .ladder)).of_zone (.inr (raised_raise _ _)) (.inr ?_)
      exact (raise_raisesOnly (.refl _) .ladder).raised (raised_raise .trip _)
    · exact (ended _).of_zone (.inl (by omega)) (.inr (raised_raise _ _))
  | off | starting | active =>
    dsimp only
    split
    · exact (raise_announces _ .ladder).of_zone (.inr (raised_raise _ _)) (.inl (iff_of_false free (by simp [state])))
    · exact (Announces.refl drops _).of_zone (.inl (by omega)) (.inl (iff_of_false free (by simp [state])))

/-- A taken level announces the edge that the trigger admits (R157). -/
theorem takenLevel_announces (l : InputId) (asserted : Bool) : Announces drops s (takenLevel l asserted s) := by
  have determined : ∀ l', (s.inputs.get l').state ≠ .undetermined →
      ((s.inputs.set l { s.inputs.get l with state := .ofLevel asserted, debouncing := none }).get l').state ≠
        .undetermined := by
    intro l' was
    rw [PerInput.get_set]
    split
    · exact (undetermined_ne_ofLevel asserted).symm
    · exact was
  unfold takenLevel
  dsimp only
  split
  · exact
      { raise_announces s (edgeNotice l) with
        triggers := PerInput.apply_get_set (f := fun v : InputLine => v.cfg.trigger) rfl
        determined := determined
        edges := fun l' was => by
          by_cases own : l' = l
          · exact .inr (.inr (own ▸ raised_raise _ _))
          · exact .inl (congrArg InputLine.state (PerInput.get_set_of_ne _ _ _ _ own)) }
  · rename_i silent
    exact
      { Announces.refl drops s with
        triggers := PerInput.apply_get_set (f := fun v : InputLine => v.cfg.trigger) rfl
        determined := determined
        edges := fun l' was => by
          by_cases own : l' = l
          · subst own
            refine .inr (.inl ?_)
            simp only [Bool.and_eq_true, bne_iff_ne, ne_eq, was, not_false_eq_true, true_and] at silent
            rw [InputLine.admitted, PerInput.get_set_self]
            cases trigger : (s.inputs.get l').cfg.trigger <;> cases asserted <;>
              simp_all [Trigger.admits, LineState.ofLevel]
          · exact .inl (congrArg InputLine.state (PerInput.get_set_of_ne _ _ _ _ own)) }

/-! ### Lines -/

/-- A comparison adds no record. -/
theorem compareLine_faults (l : LineId) (event : Comparison) :
    ∀ r ∈ (compareLine l event s).faults, ∃ r' ∈ s.faults, (r'.kind, r'.subject) = (r.kind, r.subject) := by
  have kept : ∀ r ∈ s.faults, ∃ r' ∈ s.faults, (r'.kind, r'.subject) = (r.kind, r.subject) := fun r hr => ⟨r, hr, rfl⟩
  unfold compareLine
  dsimp only
  split
  · split <;> exact kept
  · split
    · intro r hr
      obtain ⟨r', hr', rfl⟩ := List.mem_map.mp hr
      exact ⟨r', hr', by split <;> rfl⟩
    · exact kept

theorem deriveLine_faults (fresh : Bool) (l : LineId) :
    ∀ r ∈ (deriveLine fresh l s).faults, ∃ r' ∈ s.faults, (r'.kind, r'.subject) = (r.kind, r.subject) := by
  unfold deriveLine
  dsimp only
  split
  · exact compareLine_faults (setLineRecord l _ s) l .driven
  · exact fun r hr => ⟨r, hr, rfl⟩

theorem setLineRecord_announces {l : LineId} {w : ThrottleLine} (same : w.drive = (s.lines.get l).drive) :
    Announces drops s (setLineRecord l w s) :=
  { Announces.refl drops s with drive := fun l' => .inl (PerLine.apply_get_set (f := ThrottleLine.drive) same l') }

theorem compareLine_announces (l : LineId) (event : Comparison) : Announces drops s (compareLine l event s) := by
  have stored : ∀ {w : ThrottleLine}, w.drive = (s.lines.get l).drive → Announces drops s (setLineRecord l w s) :=
    fun same => setLineRecord_announces s same
  unfold compareLine
  dsimp only
  split
  · split <;> exact stored rfl
  · split
    · refine Announces.trans (t := setLineRecord l _ s) (stored ?_) (endCondition_announces _ _ _)
      rfl
    · exact stored rfl

theorem endEventWith_announces (fresh : Option LineId) : Announces drops s (endEventWith fresh s) := by
  refine (endEventWith_ended fresh s).announces (endEventWith_raisesOnly (.refl s) fresh) ?_ ?_
  · unfold endEventWith
    dsimp only
    split
    · rename_i same
      intro l
      have := congrArg (fun drives => drives.get l) same
      simp only [drives, PerLine.get_map] at this
      exact .inl this
    · exact fun _ => .inr (raised_raise _ _)
  · have derived : ∀ r ∈ (endEventWith fresh s).faults, ∃ r' ∈ s.faults,
        (r'.kind, r'.subject) = (r.kind, r.subject) := by
      intro r hr
      have hr : r ∈ (deriveLine (fresh == some .thr3) .thr3 (deriveLine (fresh == some .thr2) .thr2
          (deriveLine (fresh == some .thr1) .thr1 (deriveLine (fresh == some .thr0) .thr0 s)))).faults := by
        unfold endEventWith at hr
        dsimp only at hr
        split at hr <;> exact hr
      obtain ⟨r₂, h₂, e₂⟩ := deriveLine_faults _ _ _ r hr
      obtain ⟨r₁, h₁, e₁⟩ := deriveLine_faults _ _ _ r₂ h₂
      obtain ⟨r₀, h₀, e₀⟩ := deriveLine_faults _ _ _ r₁ h₁
      obtain ⟨r', h', e'⟩ := deriveLine_faults _ _ _ r₀ h₀
      exact ⟨r', h', e'.trans (e₀.trans (e₁.trans e₂))⟩
    exact derived

end

/-- Every move announces what it changes, but for a hint that a request of Port P or Port S takes away. -/
theorem announces_moves {drops : Prop} {exempt : List Kind} (s : State)
    (apart : ∀ kind ∈ [Kind.clearNotices, .setNoticeMask, .setInput], kind ∈ exempt)
    (hint : drops → .postureHint ∈ exempt) : KeptByMoves exempt (fun _ => True) (Announces drops s) where
  unseen _ _ same h := h.trans same.announces
  raises k t h := h.trans (raise_announces t k)
  resolves d t h := h.trans (resolve_announces t d)
  account d a t h := h.trans (storeAccount_announces t d a)
  overruns n t h := h.trans (occur_announces t _ n _)
  starts c w t _ h _ _ _ := h.trans { Announces.refl drops t with }
  tempStays c w t h _ _ := h.trans { Announces.refl drops t with }
  tempFails c w v t h _ _ :=
    (h.trans (u := setTempRecord c w t) { Announces.refl drops t with }).trans (occur_announces _ _ _ _)
  tempRecovers c w t h _ _ :=
    (h.trans (u := setTempRecord c w t) { Announces.refl drops t with }).trans (endCondition_announces _ _ _)
  powerFails n w t h _ :=
    (h.trans (u := setPowerRecord n w t) { Announces.refl drops t with }).trans (occur_announces _ _ _ _)
  powerRecovers n w t h _ :=
    (h.trans (u := setPowerRecord n w t) { Announces.refl drops t with }).trans (endCondition_announces _ _ _)
  excessBegins d c v t h _ :=
    (h.trans (u := setCompliance d c t) { Announces.refl drops t with }).trans (occur_announces _ _ _ _)
  excessEnds d c t h _ :=
    (h.trans (u := setCompliance d c t) { Announces.refl drops t with }).trans (endCondition_announces _ _ _)
  zoneTrips z v t h := h.trans
    (((occur_announces _ _ _ _).trans (raise_announces _ .trip)).of_zone (.inl rfl) (.inr (raised_raise _ _)))
  zoneRecovers z t h := h.trans
    (((endCondition_announces _ _ _).trans (raise_announces _ .trip)).of_zone (.inl rfl) (.inr (raised_raise _ _)))
  zoneMoves z position t h := h.trans (moveTo_announces t z position)
  zoneLeaves z w t h free bottom _ _ := h.trans (leaveZone_announces t free bottom)
  zoneStored z cfg t h _ _ := h.trans ((Announces.refl drops _).of_zone (.inl rfl) (.inl Iff.rfl))
  zoneEstimates z sum t h _ _ := h.trans ((Announces.refl drops _).of_zone (.inl (Zone.estimated_position _ _))
    (.inl (Zone.estimated_tripped _ _)))
  blindBegins z degraded t h := h.trans ((occur_announces _ _ _ _).of_zone (.inl rfl) (.inl Iff.rfl))
  blindEnds z degraded t h := h.trans ((endCondition_announces _ _ _).of_zone (.inl rfl) (.inl Iff.rfl))
  takes l asserted t h := h.trans (takenLevel_announces t l asserted)
  inputConfig taken := absurd (apart _ (by simp)) taken
  posture e t h := h.trans
    { raise_announces t .posture with effective := .inr (raised_raise _ _) }
  drops t h := h.trans
    { raise_announces (drops := drops) t .hintDropped with hint := fun _ _ => .inr (raised_raise _ _) }
  hint taken slot t h := h.trans { Announces.refl drops t with hint := fun want => absurd (hint want) taken }
  falls t h _ _ := h.trans
    { raise_announces t .mode with mode := .inr (raised_raise _ _) }
  activates _ t h _ := h.trans
    { raise_announces t .mode with mode := .inr (raised_raise _ _) }
  deactivates _ t h _ := h.trans
    { raise_announces t .mode with mode := .inr (raised_raise _ _) }
  watchTrips power v t h :=
    (h.trans (u := { t with watch := ⟨.tripped, power⟩ }) { Announces.refl drops t with }).trans (occur_announces _ _ _ _)
  watchEnds power t h :=
    (h.trans (u := { t with watch := ⟨.clear, power⟩ }) { Announces.refl drops t with }).trans (endCondition_announces _ _ _)
  compares l event t h := h.trans (compareLine_announces t l event)
  sticks l t h := by
    refine h.trans (.trans (t := setLineRecord l _ t) (setLineRecord_announces t ?_) (occur_announces _ _ _ _))
    rfl
  ends fresh t h := h.trans (endEventWith_announces t fresh)
  clearNotices taken := absurd (apart _ (by simp)) taken
  setNoticeMask taken := absurd (apart _ (by simp)) taken
  clearFaults _ _ t h := h.trans
    { Announces.refl drops t with faults := fun r hr => .inl ⟨r, List.mem_of_mem_filter hr, rfl⟩ }

/-! ## Commands -/

/-- What a SET_INPUT brings about announces its changes, behind the stored fields (log 25). -/
theorem configureInput_announces {drops : Prop} (l : InputId) (cfg : InputConfig) (s : State) :
    Announces drops { s with inputs := s.inputs.set l { s.inputs.get l with cfg := cfg } } (configureInput l cfg s) :=
  (announces_moves (exempt := [.clearNotices, .setNoticeMask, .setInput, .postureHint]) _ (by simp)
    (by simp)).configureInput_of_stored (.refl _ _)

/-- A request of the notice unit changes notices and links only. -/
theorem noticeRequest_same {i : Instr} {s t : State} (e : exec i s = .next t)
    (unit : ∃ call body, i = .clearNotices call body ∨ i = .setNoticeMask call body) :
    { t with notices := s.notices, links := s.links } = s := by
  obtain ⟨call, body, rfl | rfl⟩ := unit
  · refine request_keeps (P := fun u => { u with notices := s.notices, links := s.links } = s) (kind := .clearNotices)
      (fun _ _ h => h) rfl (fun received done _ served => ?_) e
    obtain ⟨set, -, rfl⟩ := served_eq_some.mp served
    rfl
  · refine request_keeps (P := fun u => { u with notices := s.notices, links := s.links } = s) (kind := .setNoticeMask)
      (fun _ _ h => h) rfl (fun received done _ served => ?_) e
    obtain ⟨set, -, rfl⟩ := served_eq_some.mp served
    rfl

/-- A SET_INPUT announces what it changes, behind fields that it may have stored. -/
theorem setInput_announces {drops : Prop} {call : Call} {body : List Byte} {s t : State}
    (e : exec (.setInput call body) s = .next t) :
    ∃ v : PerInput InputLine, (∀ l, (v.get l).state = (s.inputs.get l).state) ∧
      Announces drops { s with inputs := v } t := by
  refine request_keeps (P := fun u => ∃ v : PerInput InputLine, (∀ l, (v.get l).state = (s.inputs.get l).state) ∧
      Announces drops { s with inputs := v } u) (kind := .setInput)
    (fun u _ h => ?_) ⟨s.inputs, fun _ => rfl, .refl _ _⟩ (fun received done _ served => ?_) e
  · obtain ⟨v, same, h⟩ := h
    exact ⟨v, same, h.trans { Announces.refl drops u with }⟩
  · obtain ⟨r, -, rfl⟩ := served_eq_some.mp served
    unfold ownSetInput
    split
    · exact ⟨s.inputs, fun _ => rfl, .refl _ _⟩
    · refine ⟨_, fun l => ?_, configureInput_announces _ _ s⟩
      exact PerInput.apply_get_set (f := InputLine.state) (by rfl) l

/-- Every command but those of the notice unit and a reset announces what it changes, behind fields of input lines that
a SET_INPUT has stored. -/
theorem exec_announces {drops : Prop} {i : Instr} {s t : State} (other : ¬IsReset i)
    (unit : ¬∃ call body, i = .clearNotices call body ∨ i = .setNoticeMask call body)
    (hint : drops → ∀ call body, i ≠ .postureHint call body) (e : exec i s = .next t) :
    ∃ v : PerInput InputLine, (∀ l, (v.get l).state = (s.inputs.get l).state) ∧
      Announces drops { s with inputs := v } t := by
  by_cases input : ∃ call body, i = .setInput call body
  · obtain ⟨call, body, rfl⟩ := input
    exact setInput_announces e
  · refine ⟨s.inputs, fun _ => rfl, ?_⟩
    have kinds : ∀ kind call body, i = requestOf kind call body →
        kind ∉ [Kind.clearNotices, .setNoticeMask, .setInput] := by
      intro kind call body own listed
      simp only [List.mem_cons, List.not_mem_nil, or_false] at listed
      rcases listed with rfl | rfl | rfl
      · exact unit ⟨call, body, .inl own⟩
      · exact unit ⟨call, body, .inr own⟩
      · exact input ⟨call, body, own⟩
    by_cases want : drops
    · refine (announces_moves (exempt := [.clearNotices, .setNoticeMask, .setInput, .postureHint]) s (by simp)
        (by simp)).exec other (fun kind call body own listed => ?_) trivial (.refl _ _) e
      have split : kind ∈ [Kind.clearNotices, .setNoticeMask, .setInput] ++ [.postureHint] := listed
      rcases List.mem_append.mp split with before | last
      · exact kinds kind call body own before
      · obtain rfl := List.mem_singleton.mp last
        exact hint want call body own
    · exact (announces_moves s (fun _ => id) fun h => absurd h want).exec other kinds trivial (.refl _ _) e

/-- Settles O49: the moves announce their changes; a request of the notice unit changes nothing that has a notice. -/
theorem changesRaiseTheirNotices : Obligations.ChangesRaiseTheirNotices := by
  intro c s t e other
  by_cases unit : ∃ call body, c = .clearNotices call body ∨ c = .setNoticeMask call body
  · have same := noticeRequest_same e unit
    generalize s.notices = notices, s.links = links at same
    subst same
    refine ⟨absurd rfl, absurd rfl, fun some none => ?_, fun _ => absurd rfl, fun _ => absurd Iff.rfl,
      fun _ => absurd rfl,
      fun r hr new => absurd rfl (new r hr), absurd rfl, fun _ => absurd rfl, fun _ _ => absurd rfl⟩
    rw [none] at some
    cases some
  · obtain ⟨v, same, h⟩ := exec_announces (drops := ∀ p body, c ≠ .postureHint p body) other unit id e
    refine ⟨h.grants.resolve_left, h.effective.resolve_left, fun held none want => ?_,
      fun z => (h.position z).resolve_left,
      fun z => (h.tripped z).resolve_left, fun l => (h.drive l).resolve_left, fun r hr new => ?_, h.mode.resolve_left,
      fun d => (h.accounts d).resolve_left, fun l was change admitted => ?_⟩
    · refine (h.hint want held).resolve_left ?_
      rw [none]
      exact Bool.false_ne_true
    · refine (h.faults r hr).resolve_left ?_
      rintro ⟨r', hr', pair⟩
      exact new r' hr' pair
    · rw [← same l] at was change
      rcases h.edges l was with still | silent | raised
      · exact absurd still change
      · exact absurd admitted silent
      · exact raised

end Sys2Proof.Machine

/-! # Ranges: temperatures, fail values, estimates and domain entries (R8, R44, R57, R59) -/

namespace Sys2Proof.Machine

open Sys2Proof

/-! ## The estimate (R57 to R59) -/

/-- A sum of temperatures in range lies within the range times the weights. -/
theorem weightedSum_range {consumer : TempId → Option Int} (inRange : ∀ c x, consumer c = some x → InRange x)
    {sources : List Source} {sum : Int} (offered : weightedSum consumer sources = some sum) :
    -400 * (weightTotal sources : Int) ≤ sum ∧ sum ≤ 1500 * (weightTotal sources : Int) := by
  induction sources generalizing sum with
  | nil =>
    cases offered
    simp [weightTotal]
  | cons src rest ih =>
    simp only [weightedSum] at offered
    split at offered
    · rename_i x tail reading more
      obtain ⟨least, most⟩ := ih more
      obtain ⟨low, high⟩ := inRange _ _ reading
      obtain rfl := Option.some.inj offered
      have below : -400 * (src.weight : Int) ≤ src.weight * x := by nlinarith
      have above : (src.weight : Int) * x ≤ 1500 * src.weight := by nlinarith
      simp only [weightTotal, Nat.cast_add]
      constructor <;> linarith
    · cases offered

/-- A raw value of sources that weigh 256 is in range (R57). -/
theorem rawOf_inRange {sum : Int} (least : -400 * 256 ≤ sum) (most : sum ≤ 1500 * 256) : InRange (rawOf sum) := by
  unfold rawOf InRange
  omega

/-- A filtered step stays between the estimate and the raw value (R59). -/
theorem filtered_inRange {estimate raw : Int} {alpha : Nat} (old : InRange estimate) (new : InRange raw)
    (most : alpha ≤ 256) : InRange (filtered estimate raw alpha) := by
  have step : stepMagnitude (raw - estimate) alpha ≤ (raw - estimate).natAbs := by
    have scaled : (raw - estimate).natAbs * alpha ≤ (raw - estimate).natAbs * 256 := Nat.mul_le_mul_left _ most
    unfold stepMagnitude
    dsimp only
    split <;> omega
  unfold InRange at *
  unfold filtered
  dsimp only
  split <;> omega

/-- An update of a zone in range from sources in range leaves it in range. -/
theorem Zone.estimated_ranged {v : Zone} {raw : Int} (ranged : v.Ranged) (enabled : v.cfg.enabled = true)
    (new : InRange raw) : (v.estimated raw).Ranged := by
  obtain ⟨-, alpha⟩ := ranged.enabled enabled
  have step : ∀ e, some (filtered (v.estimate.getD raw) raw v.cfg.alpha) = some e → InRange e := by
    intro e same
    obtain rfl := Option.some.inj same
    refine filtered_inRange ?_ new alpha
    cases known : v.estimate with
    | none => exact new
    | some old => exact ranged.estimate old known
  unfold Zone.estimated
  split
  · exact ⟨ranged.enabled, ranged.disabled, fun e same => Option.some.inj same ▸ new⟩
  · exact ⟨ranged.enabled, ranged.disabled, step⟩
  · exact ⟨ranged.enabled, ranged.disabled, step⟩
  · exact ranged

/-! ## Records in range -/

/-- A channel record with value and fail value in range. -/
structure TempChannel.Ranged (v : TempChannel) : Prop where
  failValue : InRange v.cfg.failValue
  value : ∀ x, v.value = some x → InRange x

theorem TempChannel.Passes.ranged {v w : TempChannel} (h : v.Passes w) (ranged : v.Ranged) : w.Ranged :=
  ⟨h.failValue ranged.failValue, h.value ranged.value⟩

theorem TempChannel.Ranged.consumer {v : TempChannel} (ranged : v.Ranged) {x : Int} (offers : v.consumer = some x) :
    InRange x := by
  unfold TempChannel.consumer at offers
  split at offers
  · cases offers
  · cases offers
  · exact ranged.value x offers
  · exact ranged.value x offers
  · exact Option.some.inj offers ▸ ranged.failValue

theorem temperaturesSafe_iff (s : State) :
    s.TemperaturesSafe ↔ (∀ c, (s.temps.get c).Ranged) ∧ ∀ z, (s.zones.get z).Ranged :=
  ⟨fun ⟨temps, zones⟩ => ⟨fun c => ⟨(temps c).1, (temps c).2⟩, fun z => ⟨(zones z).1, (zones z).2.1, (zones z).2.2⟩⟩,
    fun ⟨temps, zones⟩ => ⟨fun c => ⟨(temps c).failValue, (temps c).value⟩,
      fun z => ⟨(zones z).enabled, (zones z).disabled, (zones z).estimate⟩⟩⟩

section

variable {s t : State} (safe : s.TemperaturesSafe)

include safe

theorem State.TemperaturesSafe.temp (c : TempId) : (s.temps.get c).Ranged := ((temperaturesSafe_iff s).mp safe).1 c

theorem State.TemperaturesSafe.zone (z : ZoneId) : (s.zones.get z).Ranged := ((temperaturesSafe_iff s).mp safe).2 z

theorem State.TemperaturesSafe.congr (temps : t.temps = s.temps) (zones : t.zones = s.zones) : t.TemperaturesSafe := by
  rw [State.TemperaturesSafe, temps, zones]
  exact safe

theorem State.TemperaturesSafe.setTemp {c : TempId} {w : TempChannel} (passes : (s.temps.get c).Passes w) :
    (setTempRecord c w s).TemperaturesSafe := by
  refine (temperaturesSafe_iff _).mpr ⟨fun other => ?_, safe.zone⟩
  rw [setTempRecord_temps, PerTemp.get_set]
  split
  · exact passes.ranged (safe.temp c)
  · exact safe.temp other

theorem State.TemperaturesSafe.setZone {z : ZoneId} {w : Zone} (ranged : w.Ranged) :
    (setZoneRecord z w s).TemperaturesSafe := by
  refine (temperaturesSafe_iff _).mpr ⟨safe.temp, fun other => ?_⟩
  rw [setZoneRecord_zones, PerZone.get_set]
  split
  · exact ranged
  · exact safe.zone other

end

/-- What follows in the log leaves the ranges. -/
theorem Logged.temperaturesSafe {s t : State} (h : Logged s t) (safe : s.TemperaturesSafe) : t.TemperaturesSafe :=
  safe.congr (h.same State.temps fun _ => rfl) (h.same State.zones fun _ => rfl)

theorem SameSeen.temperaturesSafe {s t : State} (h : SameSeen s t) (safe : s.TemperaturesSafe) :
    t.TemperaturesSafe := by
  refine (temperaturesSafe_iff t).mpr ⟨fun c => ?_, fun z => ?_⟩
  · obtain ⟨failValue, value⟩ := h.readings c
    exact ⟨failValue ▸ (safe.temp c).failValue, value ▸ (safe.temp c).value⟩
  · obtain ⟨cfg, estimate, timer⟩ := h.estimates z
    refine ⟨cfg ▸ (safe.zone z).enabled, fun off => ?_, estimate ▸ (safe.zone z).estimate⟩
    rw [cfg] at off
    rw [(safe.zone z).disabled off] at timer
    exact Option.isSome_eq_false_iff.mp timer |> Option.isNone_iff_eq_none.mp

/-- Every move keeps the ranges: a reading is clamped, and an update stays between estimate and raw value. -/
theorem temperaturesSafe_moves : KeptByMoves [] (fun _ => True) State.TemperaturesSafe where
  unseen _ _ same safe := same.temperaturesSafe safe
  raises _ _ safe := safe
  resolves d s safe := safe.congr ((resolve_offered d s).same State.temps fun _ => rfl)
    ((resolve_offered d s).same State.zones fun _ => rfl)
  account d a s safe := by unfold storeAccount; split <;> exact safe
  overruns n _ safe := (occur_logged _ _ _ _).temperaturesSafe safe
  starts _ _ _ _ safe _ _ passes := safe.setTemp passes
  tempStays _ _ _ safe _ passes := safe.setTemp passes
  tempFails _ _ _ _ safe _ passes := (occur_logged _ _ _ _).temperaturesSafe (safe.setTemp passes)
  tempRecovers _ _ _ safe _ passes := (endCondition_logged _ _ _).temperaturesSafe (safe.setTemp passes)
  powerFails _ w s safe _ := (occur_logged _ _ _ (setPowerRecord _ w s)).temperaturesSafe safe
  powerRecovers _ _ _ safe _ := safe
  excessBegins d c _ s safe _ := (occur_logged _ _ _ (setCompliance d c s)).temperaturesSafe safe
  excessEnds _ _ _ safe _ := safe
  zoneTrips z _ s safe := (occur_logged _ _ _ _).temperaturesSafe
    (safe.setZone ⟨(safe.zone z).enabled, (safe.zone z).disabled, (safe.zone z).estimate⟩)
  zoneRecovers z s safe := safe.setZone ⟨(safe.zone z).enabled, (safe.zone z).disabled, (safe.zone z).estimate⟩
  zoneMoves z _ s safe := safe.setZone ⟨(safe.zone z).enabled, (safe.zone z).disabled, (safe.zone z).estimate⟩
  zoneLeaves z w s safe _ _ _ ranged := by
    have stored : (setZoneRecord z w s).TemperaturesSafe := safe.setZone ranged
    unfold leaveZone
    dsimp only
    repeat' split
    all_goals exact stored
  zoneStored z cfg s safe was stays := safe.setZone
    ⟨fun on => (by cases on.symm.trans stays), fun _ => (safe.zone z).disabled was, (safe.zone z).estimate⟩
  zoneEstimates z sum s safe runs offered := by
    have enabled : (s.zones.get z).cfg.enabled = true := by
      by_contra off
      rw [(safe.zone z).disabled (Bool.not_eq_true _ ▸ off)] at runs
      cases runs
    obtain ⟨weigh, -⟩ := (safe.zone z).enabled enabled
    have sum := weightedSum_range (fun c _ offers => (safe.temp c).consumer offers) offered
    rw [weigh] at sum
    exact safe.setZone (Zone.estimated_ranged (safe.zone z) enabled (rawOf_inRange sum.1 sum.2))
  blindBegins z _ s safe := (occur_logged _ _ _ _).temperaturesSafe
    (safe.setZone ⟨(safe.zone z).enabled, (safe.zone z).disabled, (safe.zone z).estimate⟩)
  blindEnds z _ s safe := safe.setZone ⟨(safe.zone z).enabled, (safe.zone z).disabled, (safe.zone z).estimate⟩
  takes l asserted s safe := by
    unfold takenLevel
    dsimp only
    split <;> exact safe
  inputConfig _ _ _ _ safe := safe
  posture _ _ safe := safe
  drops _ safe := safe
  hint _ _ _ safe := safe
  falls _ safe _ _ := safe
  activates _ _ safe _ := safe
  deactivates _ _ safe _ := safe
  watchTrips power _ s safe := (occur_logged _ _ _ { s with watch := ⟨.tripped, power⟩ }).temperaturesSafe safe
  watchEnds _ _ safe := safe
  compares l event s safe := by
    unfold compareLine
    dsimp only
    repeat' split
    all_goals exact safe
  sticks l s safe := (occur_logged _ _ _ (setLineRecord l _ s)).temperaturesSafe safe
  ends fresh s safe := safe.congr ((endEventWith_ended fresh s).same State.temps fun _ => rfl)
    ((endEventWith_ended fresh s).same State.zones fun _ => rfl)
  clearNotices _ _ _ _ _ safe := safe
  setNoticeMask _ _ _ _ _ safe := safe
  clearFaults _ _ _ safe := safe

theorem exec_temperaturesSafe {i : Instr} {s t : State} (safe : s.TemperaturesSafe) (e : exec i s = .next t) :
    t.TemperaturesSafe := by
  by_cases reset : IsReset i
  · obtain ⟨edge, pins, lines, rfl⟩ := reset
    cases edge <;> cases e <;> exact temperaturesSafe_reset
  · exact temperaturesSafe_moves.exec reset (fun _ _ _ _ => List.not_mem_nil) trivial safe e

/-! ## Domain entries (R44) -/

/-- An entry that SET_PROFILE takes, over a domain's Lmin (R44, R46). -/
def Entry.Fits (e : Entry) (lmin : Nat) : Prop := 1000 ≤ e.s ∧ e.s ≤ e.b ∧ e.b ≤ 150000 ∧ e.w ≤ 64000 ∧ lmin ≤ e.s

theorem entryValid_iff (e : Entry) (lmin : Nat) : entryValid e lmin = true ↔ e.Fits lmin := by
  simp [entryValid, Entry.Fits, Config.powerMax, and_assoc]

theorem lminFits_iff (lmin : Nat) (columns : PerColumn Entry) :
    lminFits lmin columns = true ↔ ∀ c, lmin ≤ (columns.get c).s := by
  simp only [lminFits, Bool.and_eq_true, decide_eq_true_iff]
  constructor
  · rintro ⟨⟨⟨⟨safe, unsettled⟩, desk⟩, lap⟩, bag⟩ c
    cases c <;> assumption
  · exact fun all => ⟨⟨⟨⟨all .safe, all .unsettled⟩, all .desk⟩, all .lap⟩, all .bag⟩

theorem recordValid_lmin {r : DomainRecord} {columns : PerColumn Entry} (valid : recordValid r columns = true) :
    ∀ c, r.lmin ≤ (columns.get c).s := by
  simp only [recordValid, Bool.and_eq_true, decide_eq_true_iff] at valid
  obtain ⟨⟨⟨⟨⟨⟨-, fits⟩, -⟩, -⟩, -⟩, -⟩, -⟩ := valid
  exact (lminFits_iff _ _).mp fits

theorem entriesSafe_iff (s : State) :
    s.EntriesSafe ↔ ∀ d c, ((s.profile.get d).get c).Fits (s.domains.get d).lmin := Iff.rfl

theorem State.EntriesSafe.of_settings {s t : State} (safe : s.EntriesSafe) (same : t.settings = s.settings) :
    t.EntriesSafe := by
  have table := congrArg (fun u : State => (u.profile, u.domains)) same
  obtain ⟨profile, domains⟩ : t.profile = s.profile ∧ t.domains = s.domains := Prod.mk.inj table
  rw [entriesSafe_iff, profile, domains]
  exact safe

theorem State.EntriesSafe.setProfile {s : State} (safe : s.EntriesSafe) {d : DomainId} {c : Column} {e : Entry}
    (fits : e.Fits (s.domains.get d).lmin) :
    State.EntriesSafe { s with profile := s.profile.set d ((s.profile.get d).set c e) } := by
  intro d' c'
  by_cases own : d' = d
  · subst own
    rw [PerDomain.get_set_self, PerColumn.get_set]
    split
    · exact fits
    · exact safe d' c'
  · rw [PerDomain.get_set_of_ne _ _ _ _ own]
    exact safe d' c'

theorem State.EntriesSafe.setDomain {s : State} (safe : s.EntriesSafe) {d : DomainId} {r : DomainRecord}
    (fits : ∀ c, r.lmin ≤ ((s.profile.get d).get c).s) :
    State.EntriesSafe { s with domains := s.domains.set d r } := by
  intro d' c'
  by_cases own : d' = d
  · subst own
    obtain ⟨least, ordered, most, window, -⟩ := safe d' c'
    rw [PerDomain.get_set_self]
    exact ⟨least, ordered, most, window, fits c'⟩
  · rw [PerDomain.get_set_of_ne _ _ _ _ own]
    exact safe d' c'

/-- A configured power channel leaves the entries. -/
theorem configurePower_entriesSafe {s : State} (safe : s.EntriesSafe) (n : PowerId) (interval hold fail : Nat) :
    (configurePower n interval hold fail s).EntriesSafe := by
  unfold configurePower
  dsimp only
  split
  · refine State.EntriesSafe.of_settings ?_ (restChange_evented _ _).settings
    exact safe
  all_goals exact safe

/-- Only SET_PROFILE and SET_DOMAIN write what the entries are held against, and both check it. -/
theorem entriesSafe_keptByRequests : KeptByRequests [] (fun _ => True) State.EntriesSafe where
  clearNotices _ _ _ _ _ safe := safe
  setNoticeMask _ _ _ _ _ safe := safe
  clearFaults _ _ _ safe := safe
  channel c cfg s _ safe _ := safe.of_settings (configureChannel_settings c cfg s)
  power n interval hold fail s safe := configurePower_entriesSafe safe n interval hold fail
  input _ l cfg s safe _ := safe.of_settings (configureInput_settings l cfg s)
  timing _ _ _ safe := safe
  zone _ _ _ s safe _ _ := safe.of_settings (configureZone_evented _ _ s).settings
  ladder z steps s safe _ := safe.of_settings (configureLadder_evented z steps s).settings
  profile _ d c e s safe valid :=
    (safe.setProfile ((entryValid_iff _ _).mp valid)).of_settings (storeEntry_evented d c e s).settings
  skin z limits s safe _ :=
    State.EntriesSafe.of_settings (s := { s with skin := s.skin.set z limits }) safe
      (storeLimits_evented z limits s).settings
  domain _ d r s safe _ valid :=
    (safe.setDomain (recordValid_lmin valid)).of_settings (configureDomain_evented d r s).settings
  routing l cfg s safe _ _ := safe.of_settings (configureLine_evented l cfg s).settings
  supplyConfig c s safe _ :=
    State.EntriesSafe.of_settings (s := { s with supplyCfg := c }) safe (configureSupply_evented c s).settings
  report r s safe :=
    State.EntriesSafe.of_settings (s := { s with report := r }) safe
      (endEvent_evented (recomputeShares_offered _).evented).settings
  cap _ d port cap s safe _ := safe.of_settings (storeCap_evented d port cap s).settings
  hint _ hint s safe _ := safe.of_settings (placeHint_evented hint s).settings
  force _ _ s safe := State.EntriesSafe.of_settings (s := setLineRecord _ _ s) safe (endEvent_ended _).evented.settings
  activate _ s safe _ _ := safe.of_settings (becomeActive_evented s).settings
  deactivate _ s safe _ := safe.of_settings (endEvent_evented (leaveActive_fallen s).evented).settings

theorem exec_entriesSafe {i : Instr} {s t : State} (safe : s.EntriesSafe) (e : exec i s = .next t) : t.EntriesSafe := by
  by_cases reset : IsReset i
  · obtain ⟨edge, pins, lines, rfl⟩ := reset
    cases edge <;> cases e <;> exact entriesSafe_reset
  cases transaction : callOf i with
  | some call =>
    exact entriesSafe_keptByRequests.transaction (fun _ _ h => h) (by simp [transaction])
      (fun _ _ _ _ => List.not_mem_nil) trivial safe e
  | none => exact safe.of_settings (event_settings transaction reset e)

/-- Settles O52: the moves keep the temperatures, and every command but two leaves profile and Lmin. -/
theorem everyStepKeepsRanges : Obligations.EveryStepKeepsRanges := fun s t e =>
  ⟨fun safe => step_keeps (P := State.TemperaturesSafe) (fun _ _ h => h)
      (fun u h => (SameSeen.elapse 1 u).temperaturesSafe h) (fun _ _ _ h e => exec_temperaturesSafe h e) s t safe e,
    fun safe => step_keeps (P := State.EntriesSafe) (fun _ _ h => h) (fun _ h => h)
      (fun _ _ _ h e => exec_entriesSafe h e) s t safe e⟩

end Sys2Proof.Machine

/-! # Debounce, posture, column, hint and caps stay in line (R22 to R24, R28 to R32, R37 to R40, R113) -/

namespace Sys2Proof.Machine

open Sys2Proof

/-! ## What the rest of the part leaves of the classifier -/

/-- The input lines, the classifier, the mode, the column in use and the caps. -/
def State.classifying (s : State) : PerInput InputLine × Option Place × Option Timer × Posture × Option Hint × Posture ×
    Mode × Column × PerDomain Caps :=
  (s.inputs, s.candidate, s.dwell, s.committed, s.hint, s.effective, s.mode, s.column, s.caps)

/-- A property of these that time, the classifier's own commands, SET_CAP and the changes of mode keep. -/
structure KeptByClassifying (P : State → Prop) : Prop where
  rest : ∀ s t, t.classifying = s.classifying → P s → P t
  time : ∀ n s, P s → P (elapse n s)
  level : ∀ l high s, P s → (s.inputs.get l).pinHigh ≠ high →
    P (levelChange l { s with inputs := s.inputs.set l { s.inputs.get l with pinHigh := high } })
  debounced : ∀ l b s, P s → (s.inputs.get l).debouncing = some b → P (takeLevel l b.tentative s)
  dwell : ∀ w s, P s → s.dwell = some w → P (commitCandidate s)
  leaves : ∀ s, P s → P (leaveActive s)
  input : ∀ l cfg s, P s → s.mode = .safe → P (configureInput l cfg s)
  cap : ∀ d port cap s, P s → (port = .system → s.mode = .active) → P (storeCap d port cap s)
  hint : ∀ hint s, P s →
    (∀ h, hint = some h → h.origin = .system → s.mode = .active ∧ h.place.lessRestrictive s.committed = false) →
    P (placeHint hint s)
  activates : ∀ s, P s → s.mode = .safe → P (becomeActive s)

/-! ## Power channels and their consumers -/

/-- A judgement writes the domain's compliance record, the log and the notices (R121, R126). -/
theorem judgeDelivery_logged (d : DomainId) (power : Nat) (s : State) :
    ∃ c, Logged (setCompliance d c s) (judgeDelivery d power s) := by
  have stays : Logged (setCompliance d (s.compliance.get d) s) s := by
    rw [setCompliance, PerDomain.set_get_self]
    rfl
  unfold judgeDelivery
  dsimp only
  split
  · split
    · exact ⟨_, stays⟩
    · split
      · split
        · exact ⟨_, occur_logged _ _ _ _⟩
        · exact ⟨_, rfl⟩
      · exact ⟨_, rfl⟩
  · split
    · split
      · exact ⟨_, endCondition_logged _ _ _⟩
      · exact ⟨_, rfl⟩
    · exact ⟨_, rfl⟩

theorem complianceDelivery_logged (d : DomainId) (q : Quality) (power : Nat) (s : State) :
    ∃ c, Logged (setCompliance d c s) (complianceDelivery d q power s) := by
  cases q with
  | valid => exact judgeDelivery_logged d power s
  | held => exact judgeDelivery_logged d power s
  | substitute =>
    simp only [complianceDelivery, substituteCompliance]
    split
    · exact ⟨_, rfl⟩
    · exact ⟨_, endCondition_logged _ _ _⟩

theorem complianceDelivery_switched (d : DomainId) (q : Quality) (power : Nat) (s : State) :
    Switched s (complianceDelivery d q power s) := by
  obtain ⟨c, logged⟩ := complianceDelivery_logged d q power s
  exact Switched.trans (t := setCompliance d c s) rfl logged.switched

/-- A report writes the log and the notices (R18, R19). -/
theorem reportPower_logged (n : PowerId) (old new : ChannelState) (s : State) :
    Logged s (reportPower n old new s) := by
  unfold reportPower
  split
  · exact occur_logged _ _ _ _
  · split
    · exact endCondition_logged _ _ _
    · rfl

/-- A PM4 arrival writes the watch, the log and the notices (R105). -/
theorem watchDelivery_logged (power : Nat) (s : State) :
    ∃ w, Logged { s with watch := w } (watchDelivery power s) := by
  unfold watchDelivery
  dsimp only
  split
  · exact ⟨_, rfl⟩
  · exact ⟨_, rfl⟩
  · split
    · exact ⟨_, endCondition_logged _ _ _⟩
    · exact ⟨_, rfl⟩

/-! ## What keeps these, keeps every command -/

section

variable {P : State → Prop} (k : KeptByClassifying P) {s t : State}

include k

theorem KeptByClassifying.switched (frame : Switched s t) (h : P s) : P t :=
  k.rest s t (frame.same State.classifying fun _ => rfl) h

theorem KeptByClassifying.logged (frame : Logged s t) (h : P s) : P t := k.switched frame.switched h

theorem KeptByClassifying.ended (frame : Ended s t) (h : P s) : P t :=
  k.rest s t (frame.same State.classifying fun _ => rfl) h

theorem KeptByClassifying.endEvent (h : P s) : P (endEvent s) := k.ended (endEvent_ended s) h

theorem KeptByClassifying.inAnyOrder {todo : List (State → State)} (each : ∀ f ∈ todo, ∀ u, P u → P (f u)) (h : P s) :
    P (inAnyOrder todo s) :=
  inAnyOrder_keeps P (fun u _ => k.rest u _ rfl) todo each s h

/-! ### Log and sources -/

theorem KeptByClassifying.occurFatal (kind : FaultKind) (n : Nat) (v : Option Int) (h : P s) :
    P (occurFatal kind n v s) := by
  have logged : P (occur kind n v s) := k.logged (occur_logged kind n v s) h
  unfold Machine.occurFatal
  dsimp only
  split
  · exact logged
  · exact k.leaves _ logged

theorem KeptByClassifying.followSources (z : ZoneId) (h : P s) : P (followSources z s) := by
  unfold Machine.followSources
  dsimp only
  split
  · exact k.rest s _ rfl h
  · split
    · exact k.occurFatal _ _ _ (k.rest s _ rfl h)
    · exact k.rest s _ rfl h

theorem KeptByClassifying.changeTemp (c : TempId) (v w : TempChannel) (h : P s) : P (changeTemp c v w s) := by
  have followed : ∀ u, P u → P (sourcesChanged u) := by
    intro u hu
    refine k.endEvent (k.inAnyOrder ?_ hu)
    simp only [List.mem_cons, List.not_mem_nil, or_false]
    rintro f (rfl | rfl | rfl | rfl) t ht <;> exact k.followSources _ ht
  have stored : P (setTempRecord c w s) := k.rest s _ rfl h
  unfold Machine.changeTemp
  dsimp only
  split
  · exact followed _ (k.logged (occur_logged _ _ _ _) stored)
  · split
    · exact followed _ (k.logged (endCondition_logged _ _ _) stored)
    · exact stored

theorem KeptByClassifying.startConversion (h : P s) : P (startConversion s) :=
  k.rest s _ (startConversion_same State.classifying (fun _ _ _ => rfl) s) h

/-! ### Power channels -/

theorem KeptByClassifying.restChange (before : Nat) (h : P s) : P (restChange before s) := by
  unfold Machine.restChange
  split
  · exact h
  · exact k.endEvent (k.switched (recomputeShares_offered s).limited.switched h)

theorem KeptByClassifying.deliverToDomain (d : DomainId) (v : PowerChannel) (h : P s) : P (deliverToDomain d v s) := by
  unfold Machine.deliverToDomain
  split
  · exact h
  · exact k.endEvent (k.switched (accountDelivery_limited d _ _ _).switched
      (k.switched (complianceDelivery_switched d _ _ s) h))

theorem KeptByClassifying.deliverToWatch (old : ChannelState) (v : PowerChannel) (h : P s) :
    P (deliverToWatch old v s) := by
  have delivered : ∀ power, P (Machine.endEvent (watchDelivery power s)) := by
    intro power
    obtain ⟨w, logged⟩ := watchDelivery_logged power s
    exact k.endEvent (k.logged logged (k.rest s _ rfl h))
  unfold Machine.deliverToWatch
  split
  · exact delivered _
  · exact delivered _
  · split
    · exact h
    · unfold watchFailure
      split
      · exact k.rest s _ rfl h
      · exact h
      · exact h
  · exact h
  · exact h

theorem KeptByClassifying.deliver (n : PowerId) (old v : PowerChannel) (h : P s) : P (deliver n old v s) := by
  cases n with
  | pm0 => exact k.deliverToDomain .d0 v h
  | pm1 => exact k.deliverToDomain .d1 v h
  | pm2 => exact k.deliverToDomain .d2 v h
  | pm3 => exact k.restChange _ h
  | pm4 => exact k.deliverToWatch _ v h

/-! ### Configurations -/

theorem KeptByClassifying.configureChannel (c : TempId) (cfg : ChannelConfig) (h : P s) :
    P (configureChannel c cfg s) := by
  have voided : ∀ u, P u → P (voidConversion c u) := fun u => k.rest u _ rfl
  unfold Machine.configureChannel
  dsimp only
  split
  · exact h
  · split
    · exact k.rest s _ rfl h
    · exact k.rest s _ rfl h
    · exact k.changeTemp c _ _ (voided _ (k.rest s _ rfl h))
    · exact k.changeTemp c _ _ (voided _ h)

theorem KeptByClassifying.configurePower (n : PowerId) (interval hold fail : Nat) (h : P s) :
    P (configurePower n interval hold fail s) := by
  unfold Machine.configurePower
  dsimp only
  split
  · exact k.restChange _ (k.rest s _ rfl h)
  all_goals exact k.rest s _ rfl h

theorem KeptByClassifying.configureZone (z : ZoneId) (cfg : ZoneConfig) (h : P s) : P (configureZone z cfg s) := by
  have left : ∀ v w, P (Machine.endEvent (recomputeThermal (Machine.followSources z (leaveZone z v
      (setZoneRecord z w s))))) := by
    intro v w
    refine k.endEvent (k.switched (recomputeThermal_limited _).switched (k.followSources z ?_))
    refine k.rest (setZoneRecord z w s) _ ?_ (k.rest s _ rfl h)
    unfold leaveZone
    dsimp only
    split <;> split <;> rfl
  unfold Machine.configureZone
  dsimp only
  split
  · exact h
  · split
    · exact k.rest s _ rfl h
    · exact left _ _
    · exact left _ _

theorem KeptByClassifying.configureLadder (z : ZoneId) (steps : List LadderStep) (h : P s) :
    P (configureLadder z steps s) := by
  unfold Machine.configureLadder
  dsimp only
  split
  · exact h
  · split
    · exact k.endEvent (k.switched (recomputeThermal_limited _).switched (k.rest s _ rfl h))
    · exact k.endEvent (k.switched (recomputeThermal_limited _).switched (k.rest s _ rfl h))

theorem KeptByClassifying.storeEntry (d : DomainId) (c : Column) (e : Entry) (h : P s) : P (storeEntry d c e s) := by
  unfold Machine.storeEntry
  dsimp only
  split
  · exact k.endEvent (k.switched (reselectDomain_limited d _).switched (k.rest s _ rfl h))
  · exact k.rest s _ rfl h

theorem KeptByClassifying.storeLimits (z : ZoneId) (limits : PerColumn Int) (h : P s) :
    P (storeLimits z limits s) := by
  unfold Machine.storeLimits
  dsimp only
  split
  · exact k.rest s _ rfl h
  · exact k.endEvent (k.switched (reselectZone_switched z _) (k.rest s _ rfl h))

theorem KeptByClassifying.configureDomain (d : DomainId) (r : DomainRecord) (h : P s) :
    P (configureDomain d r s) := by
  have only : ∀ (b : Bool) (f : State → State), (∀ u, Limited u (f u)) → ∀ u, P u → P (onlyIf b f u) := by
    intro b f frame u hu
    unfold onlyIf
    split
    · exact k.switched (frame u).switched hu
    · exact hu
  unfold Machine.configureDomain
  dsimp only
  split
  · exact h
  · refine k.endEvent (k.inAnyOrder ?_ (k.rest s _ rfl h))
    simp only [List.mem_cons, List.not_mem_nil, or_false]
    rintro f (rfl | rfl | rfl | rfl)
    · exact only _ _ (accountRecover_limited d)
    · exact only _ _ fun u => (recomputeShares_offered u).limited
    · exact only _ _ fun u => (resolve_offered d u).limited
    · exact only _ _ fun _ => rfl

theorem KeptByClassifying.configureLine (l : LineId) (cfg : LineConfig) (h : P s) : P (configureLine l cfg s) := by
  unfold Machine.configureLine
  dsimp only
  split
  · exact h
  · exact k.ended (endEventWith_ended _ _) (k.rest s _ rfl h)

theorem KeptByClassifying.configureSupply (c : SupplyConfig) (h : P s) : P (configureSupply c s) := by
  unfold Machine.configureSupply
  split
  · exact h
  · exact k.endEvent (k.switched (recomputeShares_offered _).limited.switched (k.rest s _ rfl h))

/-! ### Events and requests -/

theorem KeptByClassifying.events : KeptByEvents (fun _ => True) P where
  pre _ _ _ := trivial
  time := k.time
  interval c s h := by
    unfold requestConversion
    split
    · exact k.logged (occur_logged _ _ _ _) (k.rest s _ rfl h)
    · exact k.startConversion (k.rest s _ rfl h)
  conversionEnd j result s _ h _ := by
    have idle : P { s with converter := none } := k.rest s _ rfl h
    refine k.startConversion ?_
    split
    · exact idle
    · unfold handleOutcome
      dsimp only
      split <;> exact k.changeTemp _ _ _ idle
  sample n sample s _ h :=
    k.deliver n _ _ (k.logged (reportPower_logged n _ _ _) (k.rest s _ rfl h))
  trip w s h _ := k.endEvent (k.occurFatal _ _ _ (k.rest s _ rfl h))
  level := k.level
  debounced := k.debounced
  dwell := k.dwell
  zoneWaits z s h _ := k.rest s _ rfl h
  zoneUpdate z sum s h _ _ := k.endEvent (k.switched (updateZone_switched z sum s) h)
  settled d s h := k.rest s _ rfl h
  sensed l high s h := k.ended (compareLine_ended l _ _) (k.rest s _ rfl h)
  sticks l w s h _ := k.endEvent (k.occurFatal _ _ _ (k.rest s _ rfl h))

theorem KeptByClassifying.requests : KeptByRequests [] (fun _ => True) P where
  clearNotices _ _ _ _ s h := k.rest s _ rfl h
  setNoticeMask _ _ _ _ s h := k.rest s _ rfl h
  clearFaults _ _ s h := k.rest s _ rfl h
  channel c cfg s _ h _ := k.configureChannel c cfg h
  power n interval hold fail s h := k.configurePower n interval hold fail h
  input _ := k.input
  timing _ _ s h := k.rest s _ rfl h
  zone z _ _ s h _ _ := k.configureZone z _ h
  ladder z steps s h _ := k.configureLadder z steps h
  profile _ d c e s h _ := k.storeEntry d c e h
  skin z limits s h _ := k.storeLimits z limits h
  domain _ d r s h _ _ := k.configureDomain d r h
  routing l cfg s h _ _ := k.configureLine l cfg h
  supplyConfig c s h _ := k.configureSupply c h
  report r s h := k.endEvent (k.switched (recomputeShares_offered _).limited.switched (k.rest s _ rfl h))
  cap _ := k.cap
  hint _ := k.hint
  force l level s h := k.endEvent (k.rest s _ rfl h)
  activate _ s h safe _ := k.activates s h safe
  deactivate _ s h _ := k.endEvent (k.leaves s h)

/-- What these keep and a reset meets, every command keeps. -/
theorem KeptByClassifying.exec {i : Instr} (reset : ∀ pins, P { State.reset with inputs := resetInputs pins }) (h : P s)
    (e : exec i s = .next t) : P t := by
  by_cases resets : IsReset i
  · obtain ⟨edge, pins, lines, rfl⟩ := resets
    cases edge with
    | low =>
      cases e
      exact k.rest { State.reset with inputs := resetInputs ⟨false, false, false, false⟩ } _ rfl (reset _)
    | ended adrsel =>
      cases e
      exact k.rest { State.reset with inputs := resetInputs pins } _ rfl (reset pins)
  cases transaction : callOf i with
  | some call =>
    exact k.requests.transaction (fun u l => k.rest u _ rfl) (by simp [transaction]) (fun _ _ _ _ => List.not_mem_nil)
      trivial h e
  | none => exact k.events.event transaction resets trivial h e

/-- What these keep and a reset meets, every step keeps. -/
theorem KeptByClassifying.step (reset : ∀ pins, P { State.reset with inputs := resetInputs pins }) (h : P s)
    (e : step s = .next t) : P t :=
  step_keeps (fun u _ => k.rest u _ rfl) (fun u => k.time 1 u) (fun _ _ _ h e => k.exec reset h e) s t h e

end

/-! ## The input lines (R22 to R24) -/

theorem takeLevel_inputs (l : InputId) (asserted : Bool) (s : State) :
    (takeLevel l asserted s).inputs =
      s.inputs.set l { s.inputs.get l with state := LineState.ofLevel asserted, debouncing := none } :=
  congrArg State.inputs (takeLevel_dwellOnly l asserted s)

/-- Lines of which one is replaced by a safe record are safe where the others were. -/
theorem inputsSafe_set {l : InputId} {v : InputLine} {s t : State} (inputs : t.inputs = s.inputs.set l v)
    (own : v.Safe) (others : ∀ l', l' ≠ l → (s.inputs.get l').Safe) : t.InputsSafe := by
  intro l'
  rw [inputs, PerInput.get_set]
  split
  · exact own
  · rename_i other
    exact others l' other

/-- A level change leaves its line safe, whatever it was (R23, R24). -/
theorem levelChange_inputsSafe {l : InputId} {s : State} (others : ∀ l', l' ≠ l → (s.inputs.get l').Safe) :
    (levelChange l s).InputsSafe := by
  unfold levelChange
  dsimp only
  split
  · rename_i same
    exact inputsSafe_set rfl same others
  · rename_i away
    unfold startDebounce
    dsimp only
    split
    · exact inputsSafe_set (takeLevel_inputs l _ s) rfl others
    · exact inputsSafe_set rfl ⟨rfl, away⟩ others

/-- A debounce started with the pin's level, which differs from the line's state, leaves the line safe (R24, R27). -/
theorem startDebounce_inputsSafe {l : InputId} {asserted : Bool} {s : State}
    (level : asserted = interpret (s.inputs.get l).cfg.polarity (s.inputs.get l).pinHigh)
    (away : (s.inputs.get l).state ≠ LineState.ofLevel asserted)
    (others : ∀ l', l' ≠ l → (s.inputs.get l').Safe) : (startDebounce l asserted s).InputsSafe := by
  have changed := levelChange_inputsSafe others
  unfold levelChange at changed
  rw [level] at away
  rw [if_neg away, ← level] at changed
  exact changed

theorem configureInput_inputsSafe {s : State} (l : InputId) (cfg : InputConfig) (safe : s.InputsSafe) :
    (configureInput l cfg s).InputsSafe := by
  have others : ∀ {v : InputLine} l', l' ≠ l →
      (PerInput.get { s with inputs := s.inputs.set l v }.inputs l').Safe := by
    intro v l' other
    rw [PerInput.get_set_of_ne _ _ _ _ other]
    exact safe l'
  have own := safe l
  unfold InputLine.Safe at own
  unfold configureInput
  dsimp only
  split
  · exact levelChange_inputsSafe others
  · rename_i polarity
    rw [not_not] at polarity
    split
    · rename_i d debouncing
      rw [debouncing] at own
      obtain ⟨tentative, away⟩ := own
      split
      · refine startDebounce_inputsSafe ?_ ?_ others <;> rw [PerInput.get_set_self]
        · rw [polarity]
          exact tentative
        · exact away
      · refine inputsSafe_set rfl ?_ fun l' _ => safe l'
        simp only [InputLine.Safe, debouncing, polarity]
        exact ⟨tentative, away⟩
    · rename_i idle
      rw [idle] at own
      refine inputsSafe_set rfl ?_ fun l' _ => safe l'
      simp only [InputLine.Safe, idle, polarity]
      exact own

theorem State.InputsSafe.of_inputs {s t : State} (safe : s.InputsSafe) (same : t.inputs = s.inputs) : t.InputsSafe := by
  rw [State.InputsSafe, same]
  exact safe

/-- The input lines change by their own commands only. -/
theorem inputsSafe_kept : KeptByClassifying State.InputsSafe where
  rest s t same safe := safe.of_inputs (congrArg Prod.fst same)
  time n s safe l := by
    have own := safe l
    unfold InputLine.Safe at own ⊢
    rw [elapse_inputs, PerInput.get_map]
    cases debouncing : (s.inputs.get l).debouncing <;> simpa [debouncing] using own
  level l high s safe _ := levelChange_inputsSafe fun l' other => by
    rw [PerInput.get_set_of_ne _ _ _ _ other]
    exact safe l'
  debounced l b s safe debouncing := by
    have own := safe l
    unfold InputLine.Safe at own
    rw [debouncing] at own
    exact inputsSafe_set (takeLevel_inputs l _ s) (congrArg LineState.ofLevel own.1) fun l' _ => safe l'
  dwell _ s safe _ := safe.of_inputs (same_of_erased (fun u => u.withoutEvent.withoutDwell) State.inputs (fun _ => rfl)
    (commitCandidate_dwellOnly s))
  leaves s safe := safe.of_inputs ((leaveActive_fallen s).same State.inputs fun _ => rfl)
  input l cfg s safe _ := configureInput_inputsSafe l cfg safe
  cap d port cap s safe _ := safe.of_inputs ((storeCap_evented d port cap s).same State.inputs fun _ => rfl)
  hint hint s safe _ := safe.of_inputs ((placeHint_evented hint s).same State.inputs fun _ => rfl)
  activates s safe _ := safe.of_inputs ((becomeActive_evented s).same State.inputs fun _ => rfl)

/-! ## Candidate, effective posture and column (R28, R30, R32, R40) -/

/-- What the four debounced states give (R28). -/
def State.classified (s : State) : Option Place :=
  classify s.inputs.lid.state s.inputs.acin.state s.inputs.motion.state s.inputs.contact.state

/-- A dwell timer that runs has a candidate (R30). -/
def State.Dwells (s : State) : Prop := s.dwell.isSome → s.candidate.isSome

/-- The column in use is the one that mode and effective posture name (R40). -/
def State.ColumnDerived (s : State) : Prop := s.column = columnOf s.mode s.effective

theorem deriveColumn_derives (s : State) : (deriveColumn s).ColumnDerived := by
  rw [State.ColumnDerived, deriveColumn_column, deriveColumn_mode, deriveColumn_effective]

/-- A derivation of the effective posture leaves a derived column derived, also where it finds no change. -/
theorem deriveEffective_derives {s : State} (derived : s.ColumnDerived) : (deriveEffective s).ColumnDerived := by
  unfold deriveEffective
  dsimp only
  split
  · exact derived
  · exact deriveColumn_derives _

theorem deriveEffective_postureSafe {s : State} (candidate : s.candidate = s.classified) (dwells : s.Dwells)
    (derived : s.ColumnDerived) : (deriveEffective s).PostureSafe := by
  have kept := (deriveEffective_fallen s).same (fun u => (u.candidate, u.classified, u.dwell, u.committed)) fun _ => rfl
  simp only [Prod.mk.injEq] at kept
  obtain ⟨sameCandidate, classified, dwell, committed⟩ := kept
  refine ⟨sameCandidate.trans (candidate.trans classified.symm), ?_, ?_, deriveEffective_derives derived⟩
  · rw [dwell, sameCandidate]
    exact dwells
  · rw [deriveEffective_effective, deriveEffective_hint, committed]

/-- What a commitment leaves: candidate, debounced states, mode, column and effective posture; the timer goes idle. -/
theorem commit_leaves (c : Place) (s : State) :
    (commit c s).candidate = s.candidate ∧ (commit c s).classified = s.classified ∧ (commit c s).dwell = none ∧
      (commit c s).column = s.column ∧ (commit c s).mode = s.mode ∧ (commit c s).effective = s.effective := by
  unfold commit
  dsimp only
  split
  · split <;> exact ⟨rfl, rfl, rfl, rfl, rfl, rfl⟩
  · exact ⟨rfl, rfl, rfl, rfl, rfl, rfl⟩

theorem commit_derived {c : Place} {s : State} (derived : s.ColumnDerived) : (commit c s).ColumnDerived := by
  obtain ⟨-, -, -, column, mode, effective⟩ := commit_leaves c s
  rw [State.ColumnDerived, column, mode, effective]
  exact derived

/-- What a classification starts from: a line that took a level left all lines determined that were (R28). -/
structure State.Reclassifiable (s : State) : Prop where
  determined : s.candidate.isSome → s.classified.isSome
  dwells : s.Dwells
  derived : s.ColumnDerived

theorem State.PostureSafe.reclassifiable {s : State} (safe : s.PostureSafe) : s.Reclassifiable := by
  obtain ⟨candidate, dwells, -, derived⟩ := safe
  exact ⟨fun held => Eq.subst (motive := fun p => p.isSome) candidate held, dwells, derived⟩

theorem setDwell_leaves (c : Place) (s : State) :
    (setDwell c s).candidate = s.candidate ∧ (setDwell c s).classified = s.classified ∧
      (s.ColumnDerived → (setDwell c s).ColumnDerived) := by
  unfold setDwell
  split
  · exact ⟨rfl, rfl, id⟩
  · obtain ⟨candidate, classified, -⟩ := commit_leaves c s
    exact ⟨candidate, classified, commit_derived⟩
  · exact ⟨rfl, rfl, id⟩

/-- After a classification the candidate is the classified one, and a running dwell timer has it (R28, R29). -/
theorem reclassify_classifies {s : State} (h : s.Reclassifiable) :
    (reclassify s).candidate = (reclassify s).classified ∧ (reclassify s).Dwells ∧ (reclassify s).ColumnDerived := by
  obtain ⟨determined, dwells, derived⟩ := h
  unfold reclassify
  dsimp only
  split
  · rename_i same
    exact ⟨same.symm, dwells, derived⟩
  · rename_i changed
    split
    · rename_i undetermined
      have idle : s.candidate = none := by
        rw [← Option.not_isSome_iff_eq_none]
        intro held
        have := determined held
        rw [State.classified, undetermined] at this
        cases this
      exact absurd (undetermined.trans idle.symm) changed
    · rename_i c place
      obtain ⟨candidate, classified, derives⟩ := setDwell_leaves c { s with candidate := some c }
      exact ⟨candidate.trans (place.symm.trans classified.symm), fun _ => congrArg Option.isSome candidate,
        derives derived⟩

theorem classifierEvent_postureSafe {s : State} (l : InputId) (edge : Bool) (h : s.Reclassifiable) :
    (classifierEvent l edge s).PostureSafe := by
  have dropped : State.Reclassifiable (if edge && dropsHeldHint l && s.hint.isSome then dropHint s else s) := by
    split
    · exact ⟨h.determined, h.dwells, h.derived⟩
    · exact h
  obtain ⟨candidate, dwells, derived⟩ := reclassify_classifies dropped
  exact deriveEffective_postureSafe candidate dwells derived

/-- A candidate exists exactly where all four lines are determined (R28). -/
theorem classify_isSome (lid acin motion contact : LineState) :
    (classify lid acin motion contact).isSome ↔
      lid ≠ .undetermined ∧ acin ≠ .undetermined ∧ motion ≠ .undetermined ∧ contact ≠ .undetermined := by
  cases lid <;> cases acin <;> cases motion <;> cases contact <;> decide

/-- A determined state in place of any leaves determined lines determined. -/
theorem classified_isSome_set {s t : State} {l : InputId} {v : InputLine} (inputs : t.inputs = s.inputs.set l v)
    (level : v.state ≠ .undetermined) (determined : s.classified.isSome) : t.classified.isSome := by
  rw [State.classified, classify_isSome] at determined ⊢
  obtain ⟨lid, acin, motion, contact⟩ := determined
  rw [inputs]
  cases l with
  | lid => exact ⟨level, acin, motion, contact⟩
  | acin => exact ⟨lid, level, motion, contact⟩
  | motion => exact ⟨lid, acin, level, contact⟩
  | contact => exact ⟨lid, acin, motion, level⟩

theorem State.PostureSafe.of_classifying {s t : State} (safe : s.PostureSafe) (same : t.classifying = s.classifying) :
    t.PostureSafe := by
  simp only [State.classifying, Prod.mk.injEq] at same
  obtain ⟨inputs, candidate, dwell, committed, hint, effective, mode, column, -⟩ := same
  rw [State.PostureSafe, inputs, candidate, dwell, committed, hint, effective, mode, column]
  exact safe

theorem State.PostureSafe.ended {s t : State} (safe : s.PostureSafe) (frame : Ended s t) : t.PostureSafe :=
  safe.of_classifying (frame.same State.classifying fun _ => rfl)

theorem State.PostureSafe.offered {s t : State} (safe : s.PostureSafe) (frame : Offered s t) : t.PostureSafe :=
  safe.of_classifying (frame.same State.classifying fun _ => rfl)

/-- A taken level leaves the posture in line, in either order of the consequences of ACIN (R25, R28, R96). -/
theorem takeLevel_postureSafe {s : State} (l : InputId) (asserted : Bool) (safe : s.PostureSafe) :
    (takeLevel l asserted s).PostureSafe := by
  have start := safe.reclassifiable
  have taken : (takenLevel l asserted s).Reclassifiable := by
    have level := (undetermined_ne_ofLevel asserted).symm
    unfold takenLevel
    dsimp only
    split
    · exact ⟨fun held => classified_isSome_set rfl level (start.determined held), start.dwells, start.derived⟩
    · exact ⟨fun held => classified_isSome_set rfl level (start.determined held), start.dwells, start.derived⟩
  have both : ∀ edge,
      (inAnyOrder [classifierEvent .acin edge, recomputeShares] (takenLevel l asserted s)).PostureSafe := by
    intro edge
    have shares : ∀ u : State, u.Reclassifiable → (recomputeShares u).Reclassifiable := by
      intro u hu
      have same := (recomputeShares_offered u).same State.classifying fun _ => rfl
      simp only [State.classifying, Prod.mk.injEq] at same
      obtain ⟨inputs, candidate, dwell, -, -, effective, mode, column, -⟩ := same
      refine ⟨?_, ?_, ?_⟩
      · rw [candidate, State.classified, inputs]
        exact hu.determined
      · rw [State.Dwells, dwell, candidate]
        exact hu.dwells
      · rw [State.ColumnDerived, column, mode, effective]
        exact hu.derived
    refine inAnyOrder_brings State.PostureSafe State.Reclassifiable (fun _ _ h => h)
      (fun _ _ h => ⟨h.determined, h.dwells, h.derived⟩) _ (classifierEvent .acin edge) (by simp)
      (fun u hu => classifierEvent_postureSafe _ _ hu) ?_ ?_ _ taken
    · simp only [List.mem_cons, List.not_mem_nil, or_false]
      rintro f (rfl | rfl) u hu
      · exact (classifierEvent_postureSafe _ _ hu).reclassifiable
      · exact shares u hu
    · simp only [List.mem_cons, List.not_mem_nil, or_false]
      rintro f (rfl | rfl) u hu safe
      · exact classifierEvent_postureSafe _ _ hu
      · exact safe.offered (recomputeShares_offered u)
  have single : ∀ edge, (classifierEvent l edge (takenLevel l asserted s)).PostureSafe := fun edge =>
    classifierEvent_postureSafe l edge taken
  unfold takeLevel
  cases l with
  | acin => exact (both _).ended (endEvent_ended _)
  | lid => exact (single _).ended (endEvent_ended _)
  | motion => exact (single _).ended (endEvent_ended _)
  | contact => exact (single _).ended (endEvent_ended _)

/-- Replaced line records of the same states leave the posture. -/
theorem State.PostureSafe.input {s : State} (safe : s.PostureSafe) {l : InputId} {v : InputLine}
    (state : v.state = (s.inputs.get l).state) : State.PostureSafe { s with inputs := s.inputs.set l v } := by
  obtain ⟨candidate, dwells, effective, derived⟩ := safe
  refine ⟨candidate.trans ?_, dwells, effective, derived⟩
  have same := PerInput.apply_get_set (f := InputLine.state) state
  exact congr (congr (congr (congrArg classify (same .lid).symm) (same .acin).symm) (same .motion).symm)
    (same .contact).symm

theorem startDebounce_postureSafe {s : State} (l : InputId) (asserted : Bool) (safe : s.PostureSafe) :
    (startDebounce l asserted s).PostureSafe := by
  unfold startDebounce
  dsimp only
  split
  · exact takeLevel_postureSafe l _ safe
  · exact safe.input rfl

theorem levelChange_postureSafe {s : State} (l : InputId) (safe : s.PostureSafe) : (levelChange l s).PostureSafe := by
  unfold levelChange
  dsimp only
  split
  · exact safe.input rfl
  · exact startDebounce_postureSafe l _ safe

theorem leaveActive_postureSafe {s : State} (safe : s.PostureSafe) : (leaveActive s).PostureSafe := by
  obtain ⟨candidate, dwells, effective, -⟩ := safe
  have kept := (leaveActive_fallen s).same (fun u => (u.candidate, u.classified, u.dwell, u.committed)) fun _ => rfl
  simp only [Prod.mk.injEq] at kept
  obtain ⟨sameCandidate, classified, dwell, committed⟩ := kept
  refine ⟨sameCandidate.trans (candidate.trans classified.symm), ?_, ?_, ?_⟩
  · rw [dwell, sameCandidate]
    exact dwells
  · cases held : heldFromSystem s.hint with
    | true =>
      obtain ⟨hint, posture, -⟩ := leaveActive_drops held
      rw [hint, posture, committed]
      rfl
    | false =>
      obtain ⟨hint, posture⟩ := leaveActive_keepsHint held
      rw [hint, posture, committed, effective]
  · rw [leaveActive_column, leaveActive_mode]
    rfl

/-- The classifier keeps candidate, effective posture and column in line. -/
theorem postureSafe_kept : KeptByClassifying State.PostureSafe where
  rest _ _ same safe := safe.of_classifying same
  time n s safe := by
    obtain ⟨candidate, dwells, effective, derived⟩ := safe
    exact ⟨candidate, fun runs => dwells (by simpa using runs), effective, derived⟩
  level l high s safe _ := levelChange_postureSafe l (safe.input rfl)
  debounced l b s safe _ := takeLevel_postureSafe l _ safe
  dwell w s safe _ := by
    obtain ⟨candidate, dwells, effective, derived⟩ := safe
    unfold commitCandidate
    split
    · exact ⟨candidate, (by rintro ⟨⟩), effective, derived⟩
    · rename_i c place
      obtain ⟨sameCandidate, classified, idle, -⟩ := commit_leaves c s
      refine (deriveEffective_postureSafe ?_ ?_ (commit_derived derived)).ended (endEvent_ended _)
      · exact sameCandidate.trans (candidate.trans classified.symm)
      · rw [State.Dwells, idle]
        rintro ⟨⟩
  leaves s safe := leaveActive_postureSafe safe
  input l cfg s safe _ := by
    have stored : State.PostureSafe { s with inputs := s.inputs.set l { s.inputs.get l with cfg := cfg } } :=
      safe.input rfl
    unfold configureInput
    dsimp only
    split
    · exact levelChange_postureSafe l stored
    · split
      · split
        · exact startDebounce_postureSafe l _ stored
        · exact stored
      · exact stored
  cap d port cap s safe _ := by
    unfold storeCap
    dsimp only
    split
    · exact safe
    · refine State.PostureSafe.ended (State.PostureSafe.offered ?_ (offerCaps_offered d _)) (endEvent_ended _)
      exact safe
  hint hint s safe _ := by
    unfold placeHint
    split
    · exact safe
    · obtain ⟨candidate, dwells, -, derived⟩ := safe
      exact (deriveEffective_postureSafe (s := { s with hint := hint }) candidate dwells derived).ended
        (endEvent_ended _)
  activates s safe _ := by
    obtain ⟨candidate, dwells, effective, -⟩ := safe
    refine State.PostureSafe.ended ⟨?_, ?_, ?_, deriveColumn_derives _⟩ (endEvent_ended _)
    all_goals
      have same := (deriveColumn_switched (raise .mode { s with mode := .active })).same
        (fun u => (u.candidate, u.classified, u.dwell, u.committed)) fun _ => rfl
      simp only [Prod.mk.injEq] at same
      obtain ⟨sameCandidate, classified, dwell, committed⟩ := same
    · exact sameCandidate.trans (candidate.trans classified.symm)
    · rw [dwell, sameCandidate]
      exact dwells
    · rw [deriveColumn_effective, deriveColumn_hint, committed]
      exact effective

/-! ## Caps and hints of Port S (R37, R38, R113) -/

theorem State.SystemSafe.of_same {s t : State} (safe : s.SystemSafe)
    (same : (t.mode, t.caps, t.hint, t.committed) = (s.mode, s.caps, s.hint, s.committed)) : t.SystemSafe := by
  simp only [Prod.mk.injEq] at same
  obtain ⟨mode, caps, hint, committed⟩ := same
  rw [State.SystemSafe, mode, caps, hint, committed]
  exact safe

theorem State.SystemSafe.ended {s t : State} (safe : s.SystemSafe) (frame : Ended s t) : t.SystemSafe :=
  safe.of_same (frame.same (fun u => (u.mode, u.caps, u.hint, u.committed)) fun _ => rfl)

theorem deriveEffective_systemSafe {s : State} (safe : s.SystemSafe) : (deriveEffective s).SystemSafe :=
  safe.of_same (by
    rw [deriveEffective_mode, deriveEffective_caps, deriveEffective_hint,
      (deriveEffective_fallen s).same State.committed fun _ => rfl])

/-- An emptied slot satisfies what is asked of hints. -/
theorem dropHint_systemSafe {s : State} (capless : s.mode = .safe → ∀ d, (s.caps.get d).capS = none) :
    (dropHint s).SystemSafe :=
  ⟨fun mode => ⟨capless mode, rfl⟩, fun _ held => by cases held⟩

theorem lessRestrictive_posture (h c : Place) : h.lessRestrictive c.posture = decide (h.rank < c.rank) := by
  cases c <;> rfl

/-- A commitment drops a hint of Port S that it makes less restrictive (R31, R38). -/
theorem commit_systemSafe {s : State} (c : Place) (safe : s.SystemSafe) : (commit c s).SystemSafe := by
  obtain ⟨withdrawn, -⟩ := safe
  unfold commit
  dsimp only
  split
  · rename_i h held
    split
    · exact dropHint_systemSafe fun mode => (withdrawn mode).1
    · rename_i stays
      refine ⟨withdrawn, fun h' held' system => ?_⟩
      obtain rfl : h' = h := Option.some.inj (held'.symm.trans held)
      rw [lessRestrictive_posture, decide_eq_false_iff_not]
      exact fun less => stays ⟨system, less⟩
  · rename_i empty
    exact ⟨withdrawn, fun _ held => by cases empty.symm.trans held⟩

theorem reclassify_systemSafe {s : State} (safe : s.SystemSafe) : (reclassify s).SystemSafe := by
  unfold reclassify
  dsimp only
  split
  · exact safe
  · split
    · exact safe
    · unfold setDwell
      split
      · exact safe
      · exact commit_systemSafe (s := { s with candidate := some _ }) _ safe
      · exact safe

theorem classifierEvent_systemSafe {s : State} (l : InputId) (edge : Bool) (safe : s.SystemSafe) :
    (classifierEvent l edge s).SystemSafe := by
  refine deriveEffective_systemSafe (reclassify_systemSafe ?_)
  split
  · exact dropHint_systemSafe fun mode => (safe.1 mode).1
  · exact safe

theorem takeLevel_systemSafe {s : State} (l : InputId) (asserted : Bool) (safe : s.SystemSafe) :
    (takeLevel l asserted s).SystemSafe := by
  have taken : (takenLevel l asserted s).SystemSafe := by
    unfold takenLevel
    dsimp only
    split <;> exact safe
  have single : ∀ edge, (classifierEvent l edge (takenLevel l asserted s)).SystemSafe := fun edge =>
    classifierEvent_systemSafe l edge taken
  have both : ∀ edge,
      (inAnyOrder [classifierEvent .acin edge, recomputeShares] (takenLevel l asserted s)).SystemSafe := by
    refine fun edge => inAnyOrder_keeps State.SystemSafe (fun _ _ h => h) _ ?_ _ taken
    simp only [List.mem_cons, List.not_mem_nil, or_false]
    rintro f (rfl | rfl) u hu
    · exact classifierEvent_systemSafe _ _ hu
    · exact hu.of_same ((recomputeShares_offered u).same (fun u => (u.mode, u.caps, u.hint, u.committed)) fun _ => rfl)
  unfold takeLevel
  cases l with
  | acin => exact (both _).ended (endEvent_ended _)
  | lid => exact (single _).ended (endEvent_ended _)
  | motion => exact (single _).ended (endEvent_ended _)
  | contact => exact (single _).ended (endEvent_ended _)

theorem startDebounce_systemSafe {s : State} (l : InputId) (asserted : Bool) (safe : s.SystemSafe) :
    (startDebounce l asserted s).SystemSafe := by
  unfold startDebounce
  dsimp only
  split
  · exact takeLevel_systemSafe l _ safe
  · exact safe

theorem levelChange_systemSafe {s : State} (l : InputId) (safe : s.SystemSafe) : (levelChange l s).SystemSafe := by
  unfold levelChange
  dsimp only
  split
  · exact safe
  · exact startDebounce_systemSafe l _ safe

/-- Leaving ACTIVE clears every CAP_S and drops a hint of Port S (R37, R113). -/
theorem leaveActive_systemSafe {s : State} (safe : s.SystemSafe) : (leaveActive s).SystemSafe := by
  have committed := (leaveActive_fallen s).same State.committed fun _ => rfl
  have hint : (leaveActive s).hint = none ∨ (leaveActive s).hint = s.hint ∧ heldFromSystem s.hint = false := by
    cases held : heldFromSystem s.hint with
    | true => exact .inl (leaveActive_drops held).1
    | false => exact .inr ⟨(leaveActive_keepsHint held).1, rfl⟩
  refine ⟨fun _ => ⟨fun d => by rw [leaveActive_caps], ?_⟩, fun h held system => ?_⟩
  · rcases hint with dropped | ⟨stays, free⟩
    · rw [dropped]
      rfl
    · rw [stays, free]
  · rcases hint with dropped | ⟨stays, -⟩
    · rw [dropped] at held
      cases held
    · rw [committed]
      exact safe.2 h (stays ▸ held) system

/-- A cap of Port S is placed in ACTIVE only (R111). -/
theorem storeCap_systemSafe {s : State} (d : DomainId) {port : Port} (cap : Option Nat) (safe : s.SystemSafe)
    (active : port = .system → s.mode = .active) : (storeCap d port cap s).SystemSafe := by
  obtain ⟨withdrawn, fits⟩ := safe
  unfold storeCap
  dsimp only
  split
  · exact ⟨withdrawn, fits⟩
  · have offered := offerCaps_offered d { s with caps := s.caps.set d ((s.caps.get d).place port cap) }
    have same := offered.same (fun u => (u.mode, u.caps, u.hint, u.committed)) fun _ => rfl
    refine (State.SystemSafe.of_same ?_ same).ended (endEvent_ended _)
    refine ⟨fun mode => ?_, fits⟩
    obtain ⟨capless, free⟩ := withdrawn mode
    refine ⟨fun d' => ?_, free⟩
    have platform : port = .platform := by
      cases port with
      | platform => rfl
      | system => cases (active rfl).symm.trans mode
    subst platform
    exact (PerDomain.apply_get_set (f := Caps.capS) (x := (s.caps.get d).place .platform cap) rfl d').trans (capless d')

theorem systemSafe_kept : KeptByClassifying State.SystemSafe where
  rest s t same safe := by
    simp only [State.classifying, Prod.mk.injEq] at same
    obtain ⟨-, -, -, committed, hint, -, mode, -, caps⟩ := same
    exact safe.of_same (by rw [mode, caps, hint, committed])
  time n s safe := safe
  level l high s safe _ := levelChange_systemSafe l safe
  debounced l b s safe _ := takeLevel_systemSafe l _ safe
  dwell w s safe _ := by
    unfold commitCandidate
    split
    · exact safe
    · exact (deriveEffective_systemSafe (commit_systemSafe _ safe)).ended (endEvent_ended _)
  leaves s safe := leaveActive_systemSafe safe
  input l cfg s safe _ := by
    unfold configureInput
    dsimp only
    split
    · exact levelChange_systemSafe l safe
    · split
      · split
        · exact startDebounce_systemSafe l _ safe
        · exact safe
      · exact safe
  cap d port cap s safe active := storeCap_systemSafe d cap safe active
  hint hint s safe allowed := by
    unfold placeHint
    split
    · exact safe
    · refine (deriveEffective_systemSafe ?_).ended (endEvent_ended _)
      obtain ⟨withdrawn, -⟩ := safe
      refine ⟨fun mode => ⟨(withdrawn mode).1, ?_⟩, fun h held system => (allowed h held system).2⟩
      cases given : hint with
      | none => rfl
      | some h =>
        rw [heldFromSystem, beq_eq_false_iff_ne]
        intro system
        cases (allowed h given system).1.symm.trans mode
  activates s safe _ := by
    refine (State.SystemSafe.of_same (s := raise .mode { s with mode := .active }) ⟨fun mode => (by cases mode), safe.2⟩
      ?_).ended (endEvent_ended _)
    exact (deriveColumn_switched _).same (fun u => (u.mode, u.caps, u.hint, u.committed)) fun _ => rfl

/-- Settles O53: the input lines, the posture and what Port S placed each stay in line under the classifier's commands,
SET_CAP and the changes of mode, and nothing else reaches them. -/
theorem everyStepKeepsPosture : Obligations.EveryStepKeepsPosture := fun _ _ e =>
  ⟨fun safe => inputsSafe_kept.step inputsSafe_reset safe e,
    fun safe => postureSafe_kept.step (fun _ => ⟨rfl, id, rfl, rfl⟩) safe e,
    fun safe => systemSafe_kept.step
      (fun _ => ⟨fun _ => ⟨fun d => by cases d <;> rfl, rfl⟩, fun _ held => by cases held⟩) safe e⟩

end Sys2Proof.Machine

/-! # Allocation, copies and grants stay as their inputs give them (R69, R82, R96 to R103, R110, R116) -/

namespace Sys2Proof.Machine

open Sys2Proof

/-! ## What may be due: an allocation, an offer to the resolver or a resolution -/

/-- What the resolver holds a copy of (R110). -/
inductive Copy where
  | allowance | share | caps | percent

/-- A domain's copies hold what is to be copied. -/
def Copy.Holds (k : Copy) (c : Contributors) (d : DomainId) (s : State) : Prop :=
  match k with
  | .allowance => c.allowance = (s.accounts.get d).allowance
  | .share => c.share = s.supply.share.get d
  | .caps => c.capP = (s.caps.get d).capP ∧ c.capS = (s.caps.get d).capS
  | .percent => c.percent = s.thermal.get d

/-- What a change of an input leaves to be done: the recomputation at the arbiter, an offer to the resolver, or a
domain's resolution. -/
inductive Due where
  | allocation
  | copy (k : Copy) (d : DomainId)
  | grant (d : DomainId)

/-- What is due has been done: the value stands where it belongs. -/
def State.Done (s : State) : Due → Prop
  | .allocation => s.supply = allocationOf s
  | .copy k d => k.Holds (s.contributors.get d) d s
  | .grant d => (s.grants.get d).agrees (resolution (s.contributors.get d) (s.domains.get d).lmin) = true

/-- The grants are safe where nothing is due. -/
theorem grantsSafe_iff (s : State) : s.GrantsSafe ↔ ∀ x, s.Done x := by
  constructor
  · rintro ⟨allocation, copied⟩ x
    cases x with
    | allocation => exact allocation
    | copy k d =>
      have same := (copied d).1
      cases k with
      | allowance => exact congrArg Contributors.allowance same
      | share => exact congrArg Contributors.share same
      | caps => exact ⟨congrArg Contributors.capP same, congrArg Contributors.capS same⟩
      | percent => exact congrArg Contributors.percent same
    | grant d => exact (copied d).2
  · intro done
    refine ⟨done .allocation, fun d => ⟨?_, done (.grant d)⟩⟩
    have allowance : (s.contributors.get d).allowance = _ := done (.copy .allowance d)
    have share : (s.contributors.get d).share = _ := done (.copy .share d)
    have percent : (s.contributors.get d).percent = _ := done (.copy .percent d)
    obtain ⟨capP, capS⟩ := done (.copy .caps d)
    rw [← allowance, ← share, ← capP, ← capS, ← percent]

/-- The inputs of arbiter and resolver, the allocation, the copies and the grants. -/
def State.offering (s : State) : LineState × SupplyReport × SupplyConfig × Nat × PerDomain DomainRecord ×
    PerDomain Account × PerDomain Caps × PerDomain Nat × Allocation × PerDomain Contributors × PerDomain Grant :=
  (s.inputs.acin.state, s.report, s.supplyCfg, restValue s.powers.pm3 s.restFail, s.domains, s.accounts, s.caps,
    s.thermal, s.supply, s.contributors, s.grants)

theorem State.Done.of_offering {x : Due} {s t : State} (done : s.Done x) (same : t.offering = s.offering) :
    t.Done x := by
  simp only [State.offering, Prod.mk.injEq] at same
  obtain ⟨acin, report, supplyCfg, rest, domains, accounts, caps, thermal, supply, contributors, grants⟩ := same
  cases x with
  | allocation =>
    simp only [State.Done, allocationOf, acin, report, supplyCfg, rest, domains, accounts, caps, supply]
    exact done
  | copy k d =>
    cases k <;>
    · simp only [State.Done, Copy.Holds, accounts, caps, thermal, supply, contributors]
      exact done
  | grant d =>
    simp only [State.Done, domains, contributors, grants]
    exact done

/-- What every consequence keeps, and one that is due does, is done after all of them. -/
theorem State.Done.inAnyOrder {x : Due} {s : State} {todo : List (State → State)}
    (keeps : ∀ f ∈ todo, ∀ u : State, u.Done x → (f u).Done x)
    (done : s.Done x ∨ ∃ g ∈ todo, ∀ u : State, (g u).Done x) : (inAnyOrder todo s).Done x := by
  have drawn : ∀ (u : State) k, u.Done x → State.Done { u with schedule := k } x := fun u _ h => h.of_offering rfl
  rcases done with done | ⟨g, member, does⟩
  · exact inAnyOrder_keeps _ drawn todo keeps s done
  · exact inAnyOrder_brings (State.Done · x) (fun _ => True) drawn (fun _ _ h => h) todo g member (fun u _ => does u)
      (fun _ _ _ _ => trivial) (fun f hf u _ => keeps f hf u) s trivial

/-! ## The resolver -/

/-- A resolution does the domain's grant, and leaves what has been done (R116, R117). -/
theorem resolve_done {x : Due} (d : DomainId) {s : State} (h : s.Done x ∨ x = .grant d) : (resolve d s).Done x := by
  obtain ⟨supply, contributors, -⟩ := resolve_supply d s
  have same := (resolve_offered d s).same
    (fun u => (u.inputs, u.report, u.supplyCfg, u.powers, u.restFail, u.domains, u.accounts, u.caps, u.thermal))
    fun _ => rfl
  simp only [Prod.mk.injEq] at same
  obtain ⟨inputs, report, supplyCfg, powers, restFail, domains, accounts, caps, thermal⟩ := same
  cases x with
  | allocation =>
    simp only [State.Done, allocationOf, inputs, report, supplyCfg, powers, restFail, domains, accounts, caps, supply]
    exact h.resolve_right (by rintro ⟨⟩)
  | copy k d' =>
    have done := h.resolve_right (by rintro ⟨⟩)
    cases k <;>
    · simp only [State.Done, Copy.Holds, accounts, caps, thermal, supply, contributors]
      exact done
  | grant d' =>
    simp only [State.Done, domains, contributors]
    by_cases own : d' = d
    · subst own
      exact resolve_agrees d' s
    · rw [resolve_others d d' s own]
      exact h.resolve_right (by rintro ⟨⟩; exact own rfl)

/-- An offer to the resolver does what its copy holds, and the grant (R110, R117). -/
theorem offer_done {x : Due} {d : DomainId} {c : Contributors} {s : State} (h : s.Done x ∨ ∃ k, x = .copy k d)
    (holds : ∀ k, x = .copy k d → k.Holds c d s) :
    (resolve d { s with contributors := s.contributors.set d c }).Done x := by
  apply resolve_done
  cases x with
  | allocation => exact .inl (h.resolve_right (by rintro ⟨_, ⟨⟩⟩))
  | copy k d' =>
    left
    by_cases own : d' = d
    · subst own
      simp only [State.Done, PerDomain.get_set_self]
      cases k <;> exact holds _ rfl
    · have done := h.resolve_right (by rintro ⟨_, ⟨⟩⟩; exact own rfl)
      simp only [State.Done, PerDomain.get_set_of_ne _ _ _ _ own]
      cases k <;> exact done
  | grant d' =>
    by_cases own : d' = d
    · exact .inr (own ▸ rfl)
    · left
      have done := h.resolve_right (by rintro ⟨_, ⟨⟩⟩)
      simp only [State.Done, PerDomain.get_set_of_ne _ _ _ _ own]
      exact done

theorem offerAllowanceToResolver_done {x : Due} (d : DomainId) {s : State} (h : s.Done x ∨ x = .copy .allowance d) :
    (offerAllowanceToResolver d s).Done x := by
  refine offer_done (h.imp id fun e => ⟨_, e⟩) fun k e => ?_
  subst e
  cases k with
  | allowance => rfl
  | share => exact h.resolve_right (by rintro ⟨⟩)
  | caps => exact h.resolve_right (by rintro ⟨⟩)
  | percent => exact h.resolve_right (by rintro ⟨⟩)

theorem offerShareToResolver_done {x : Due} (d : DomainId) {s : State} (h : s.Done x ∨ x = .copy .share d) :
    (offerShareToResolver d s).Done x := by
  refine offer_done (h.imp id fun e => ⟨_, e⟩) fun k e => ?_
  subst e
  cases k with
  | share => rfl
  | allowance => exact h.resolve_right (by rintro ⟨⟩)
  | caps => exact h.resolve_right (by rintro ⟨⟩)
  | percent => exact h.resolve_right (by rintro ⟨⟩)

theorem offerCapsToResolver_done {x : Due} (d : DomainId) {s : State} (h : s.Done x ∨ x = .copy .caps d) :
    (offerCapsToResolver d s).Done x := by
  refine offer_done (h.imp id fun e => ⟨_, e⟩) fun k e => ?_
  subst e
  cases k with
  | caps => exact ⟨rfl, rfl⟩
  | allowance => exact h.resolve_right (by rintro ⟨⟩)
  | share => exact h.resolve_right (by rintro ⟨⟩)
  | percent => exact h.resolve_right (by rintro ⟨⟩)

theorem offerPercentToResolver_done {x : Due} (d : DomainId) {s : State} (h : s.Done x ∨ x = .copy .percent d) :
    (offerPercentToResolver d s).Done x := by
  refine offer_done (h.imp id fun e => ⟨_, e⟩) fun k e => ?_
  subst e
  cases k with
  | percent => rfl
  | allowance => exact h.resolve_right (by rintro ⟨⟩)
  | share => exact h.resolve_right (by rintro ⟨⟩)
  | caps => exact h.resolve_right (by rintro ⟨⟩)

/-! ## The arbiter -/

theorem offerShareIfChanged_copies (before : PerDomain (Option Nat)) (d d' : DomainId) (s : State) :
    (offerShareIfChanged before d s).contributors.get d' =
      if d' = d ∧ s.supply.share.get d ≠ before.get d then
        { s.contributors.get d with share := s.supply.share.get d }
      else s.contributors.get d' := by
  unfold offerShareIfChanged
  split
  · rename_i same
    rw [if_neg fun changed => changed.2 same]
  · rename_i changed
    rw [offerShareToResolver, (resolve_supply d _).2.1, PerDomain.get_set]
    by_cases own : d' = d
    · rw [if_pos own, if_pos ⟨own, changed⟩]
    · rw [if_neg own, if_neg fun h => own h.1]

/-- A recomputation copies the shares that it changes (R102). -/
theorem recomputeShares_copies (d : DomainId) (s : State) :
    (recomputeShares s).contributors.get d =
      if (allocationOf s).share.get d = s.supply.share.get d then s.contributors.get d
      else { s.contributors.get d with share := (allocationOf s).share.get d } := by
  unfold recomputeShares
  cases d <;> simp [offerShareIfChanged_copies, offerShareIfChanged_supply]

/-- A recomputation computes the allocation, and offers the shares that it changes (R101, R102). -/
theorem recomputeShares_done {x : Due} {s : State} (h : s.Done x ∨ x = .allocation) : (recomputeShares s).Done x := by
  have offers : ∀ d (u : State), u.Done x → (offerShareIfChanged s.supply.share d u).Done x := by
    intro d u done
    unfold offerShareIfChanged
    split
    · exact done
    · exact offerShareToResolver_done d (.inl done)
  have computed : State.Done { s with supply := allocationOf s } x → (recomputeShares s).Done x := fun done =>
    offers .d2 _ (offers .d1 _ (offers .d0 _ done))
  cases x with
  | allocation => exact computed rfl
  | grant d => exact computed (h.resolve_right (by rintro ⟨⟩))
  | copy k d =>
    have done := h.resolve_right (by rintro ⟨⟩)
    cases k with
    | share =>
      have copied : (s.contributors.get d).share = s.supply.share.get d := done
      rw [State.Done, Copy.Holds, recomputeShares_copies, recomputeShares_supply]
      split
      · rename_i same
        rw [copied, same]
      · rfl
    | allowance => exact computed done
    | caps => exact computed done
    | percent => exact computed done

/-- The offers of a changed cap (R112, R113). -/
theorem offerCaps_done {x : Due} (d : DomainId) {s : State} (h : s.Done x ∨ x = .allocation ∨ x = .copy .caps d) :
    (inAnyOrder [offerCapsToResolver d, recomputeShares] s).Done x := by
  refine State.Done.inAnyOrder ?_ (h.imp id ?_)
  · simp only [List.mem_cons, List.not_mem_nil, or_false]
    rintro f (rfl | rfl) u done
    · exact offerCapsToResolver_done d (.inl done)
    · exact recomputeShares_done (.inl done)
  · rintro (allocation | caps)
    · exact ⟨recomputeShares, by simp, fun _ => recomputeShares_done (.inr allocation)⟩
    · exact ⟨offerCapsToResolver d, by simp, fun _ => offerCapsToResolver_done d (.inr caps)⟩

/-! ## Accounts and thermal percents -/

/-- A stored account leaves what has been done where its allowance stays (R82, R100). -/
theorem storedAccount_done {x : Due} {d : DomainId} {a : Account} {s : State}
    (same : a.allowance = (s.accounts.get d).allowance) (done : s.Done x) :
    State.Done { s with accounts := s.accounts.set d a } x := by
  have allowance := PerDomain.apply_get_set (f := Account.allowance) same
  cases x with
  | allocation =>
    simp only [State.Done, allocationOf, allowance]
    exact done
  | copy k d' =>
    cases k with
    | allowance =>
      simp only [State.Done, Copy.Holds, allowance]
      exact done
    | share => exact done
    | caps => exact done
    | percent => exact done
  | grant d' => exact done

/-- A stored account leaves everything but the recomputation and the offer of its allowance. -/
theorem storedAccount_due {x : Due} {d : DomainId} {a : Account} {s : State} (done : s.Done x) :
    State.Done { s with accounts := s.accounts.set d a } x ∨ x = .allocation ∨ x = .copy .allowance d := by
  cases x with
  | allocation => exact .inr (.inl rfl)
  | copy k d' =>
    cases k with
    | allowance =>
      by_cases own : d' = d
      · exact .inr (.inr (own ▸ rfl))
      · left
        simp only [State.Done, Copy.Holds, PerDomain.get_set_of_ne _ _ _ _ own]
        exact done
    | share => exact .inl done
    | caps => exact .inl done
    | percent => exact .inl done
  | grant d' => exact .inl done

/-- An account settled leaves what has been done: a changed allowance is offered to the arbiter and to the resolver
(R82). -/
theorem settleAccount_done {x : Due} (d : DomainId) (next : Account) {s : State} (done : s.Done x) :
    (settleAccount d next s).Done x := by
  have offered : ∀ u : State, u.Done x ∨ x = .allocation ∨ x = .copy .allowance d → (offerAllowance d u).Done x := by
    intro u h
    refine State.Done.inAnyOrder ?_ (h.imp id ?_)
    · simp only [List.mem_cons, List.not_mem_nil, or_false]
      rintro f (rfl | rfl) u done
      · exact recomputeShares_done (.inl done)
      · exact offerAllowanceToResolver_done d (.inl done)
    · rintro (allocation | allowance)
      · exact ⟨recomputeShares, by simp, fun _ => recomputeShares_done (.inr allocation)⟩
      · exact ⟨offerAllowanceToResolver d, by simp, fun _ => offerAllowanceToResolver_done d (.inr allowance)⟩
  have raised : ∀ (c : Prop) [Decidable c] (u : State), u.Done x → (if c then u else raise .burst u).Done x := by
    intro c _ u done
    split
    · exact done
    · exact done.of_offering rfl
  unfold settleAccount
  dsimp only
  split
  · rename_i same
    exact raised _ _ (storedAccount_done same done)
  · exact offered _ ((storedAccount_due done).imp (raised _ _) id)

/-- What a changed thermal percent leaves due, the offers do (R69). -/
theorem offerThermal_done {x : Due} (d : DomainId) {s : State} (h : s.Done x ∨ x = .copy .percent d) :
    (offerThermal d s).Done x := by
  refine State.Done.inAnyOrder ?_ (h.imp id fun percent => ?_)
  · simp only [List.mem_cons, List.not_mem_nil, or_false]
    rintro f (rfl | rfl) u done
    · exact settleAccount_done d _ done
    · exact offerPercentToResolver_done d (.inl done)
  · exact ⟨offerPercentToResolver d, by simp, fun _ => offerPercentToResolver_done d (.inr percent)⟩

theorem recomputeThermal_done {x : Due} {s : State} (done : s.Done x) : (recomputeThermal s).Done x := by
  have each : ∀ d (u : State), u.Done x → (recomputeThermalOf d u).Done x := by
    intro d u done
    unfold recomputeThermalOf
    dsimp only
    split
    · exact done
    · apply offerThermal_done
      cases x with
      | copy k d' =>
        cases k with
        | percent =>
          by_cases own : d' = d
          · exact .inr (own ▸ rfl)
          · left
            simp only [State.Done, Copy.Holds, PerDomain.get_set_of_ne _ _ _ _ own]
            exact done
        | _ => exact .inl done
      | _ => exact .inl done
  refine State.Done.inAnyOrder ?_ (.inl done)
  simp only [List.mem_cons, List.not_mem_nil, or_false]
  rintro f (rfl | rfl | rfl) u done <;> exact each _ u done

/-! ## Column switches and changes of mode -/

section

variable {x : Due} {s t : State}

theorem State.Done.logged (done : s.Done x) (frame : Logged s t) : t.Done x :=
  done.of_offering (frame.same State.offering fun _ => rfl)

theorem State.Done.ended (done : s.Done x) (frame : Ended s t) : t.Done x :=
  done.of_offering (frame.same State.offering fun _ => rfl)

theorem State.Done.endEvent (done : s.Done x) : (endEvent s).Done x := done.ended (endEvent_ended s)

theorem ladderUp_done (z : ZoneId) (done : s.Done x) : (ladderUp z s).Done x := by
  unfold ladderUp
  dsimp only
  split
  · exact done
  · split
    · exact done.of_offering rfl
    · exact done

theorem tripCheck_done (z : ZoneId) (done : s.Done x) : (tripCheck z s).Done x := by
  have stored : ∀ w, (setZoneRecord z w s).Done x := fun w => done.of_offering rfl
  unfold tripCheck
  dsimp only
  split
  · exact done
  · split
    · split
      · exact ((stored _).logged (occur_logged _ _ _ _)).logged (raise_logged _ _)
      · exact done
    · split
      · exact ((stored _).logged (endCondition_logged _ _ _)).logged (raise_logged _ _)
      · exact done
    · exact done
    · exact done

theorem zoneSwitch_done (z : ZoneId) (done : s.Done x) : (zoneSwitch z s).Done x := by
  unfold zoneSwitch
  split
  · exact ladderUp_done z (tripCheck_done z done)
  · exact done

theorem zonesSwitch_done (done : s.Done x) : (zonesSwitch s).Done x := by
  refine recomputeThermal_done (State.Done.inAnyOrder ?_ (.inl done))
  simp only [List.mem_cons, List.not_mem_nil, or_false]
  rintro f (rfl | rfl | rfl | rfl) u done <;> exact zoneSwitch_done _ done

theorem updateZone_done (z : ZoneId) (sum : Int) (done : s.Done x) : (updateZone z sum s).Done x := by
  have checked : (tripCheck z (setZoneRecord z ((s.zones.get z).estimated (rawOf sum)) s)).Done x :=
    tripCheck_done z (done.of_offering rfl)
  unfold updateZone
  refine recomputeThermal_done ?_
  split
  · exact ladderUp_done z checked
  · unfold ladderUpdate
    dsimp only
    split
    · exact checked
    · split
      · exact ladderUp_done z checked
      · split <;> exact checked.of_offering rfl

/-- A switch of the column in use reaches the arbiter once more, whatever it changes (R41). -/
theorem announceSwitch_done (h : s.Done x ∨ x = .allocation) : (announceSwitch s).Done x := by
  refine State.Done.inAnyOrder ?_ (h.imp id fun allocation =>
    ⟨recomputeShares, by simp, fun _ => recomputeShares_done (.inr allocation)⟩)
  simp only [List.mem_cons, List.not_mem_nil, or_false]
  rintro f (rfl | rfl | rfl | rfl | rfl) u done
  · exact zonesSwitch_done done
  · exact settleAccount_done _ _ done
  · exact settleAccount_done _ _ done
  · exact settleAccount_done _ _ done
  · exact recomputeShares_done (.inl done)

theorem deriveColumn_done (done : s.Done x) : (deriveColumn s).Done x := by
  unfold deriveColumn
  dsimp only
  split
  · exact done
  · exact announceSwitch_done (.inl (done.of_offering rfl))

theorem deriveEffective_done (done : s.Done x) : (deriveEffective s).Done x := by
  unfold deriveEffective
  dsimp only
  split
  · exact done
  · exact deriveColumn_done (done.of_offering rfl)

/-- Changed caps leave everything but the recomputation and the offer of the caps. -/
theorem storedCaps_due {d : DomainId} {c : Caps} (done : s.Done x) :
    State.Done { s with caps := s.caps.set d c } x ∨ x = .allocation ∨ x = .copy .caps d := by
  cases x with
  | allocation => exact .inr (.inl rfl)
  | copy k d' =>
    cases k with
    | caps =>
      by_cases own : d' = d
      · exact .inr (.inr (own ▸ rfl))
      · left
        simp only [State.Done, Copy.Holds, PerDomain.get_set_of_ne _ _ _ _ own]
        exact done
    | _ => exact .inl done
  | grant d' => exact .inl done

theorem clearCapS_done (d : DomainId) (done : s.Done x) : (clearCapS d s).Done x := by
  unfold clearCapS
  dsimp only
  split
  · exact done
  · exact offerCaps_done d (storedCaps_due done)

theorem leaveActive_done (done : s.Done x) : (leaveActive s).Done x := by
  rw [leaveActive_eq]
  refine State.Done.inAnyOrder (fun f hf u done => ?_) (.inl (done.of_offering rfl))
  rcases mem_leaveConsequences hf with rfl | ⟨d, rfl⟩ | rfl
  · exact deriveColumn_done done
  · exact clearCapS_done d done
  · unfold dropSystemHint
    split
    · exact deriveEffective_done (done.of_offering rfl)
    · exact done

theorem occurFatal_done (kind : FaultKind) (n : Nat) (v : Option Int) (done : s.Done x) :
    (occurFatal kind n v s).Done x := by
  have logged : (occur kind n v s).Done x := done.logged (occur_logged kind n v s)
  unfold occurFatal
  dsimp only
  split
  · exact logged
  · exact leaveActive_done logged

theorem followSources_done (z : ZoneId) (done : s.Done x) : (followSources z s).Done x := by
  unfold followSources
  dsimp only
  split
  · exact done.of_offering rfl
  · split
    · exact occurFatal_done _ _ _ (done.of_offering rfl)
    · exact done.of_offering rfl

theorem changeTemp_done (c : TempId) (v w : TempChannel) (done : s.Done x) : (changeTemp c v w s).Done x := by
  have followed : ∀ u : State, u.Done x → (sourcesChanged u).Done x := by
    intro u done
    refine State.Done.endEvent (State.Done.inAnyOrder ?_ (.inl done))
    simp only [List.mem_cons, List.not_mem_nil, or_false]
    rintro f (rfl | rfl | rfl | rfl) u done <;> exact followSources_done _ done
  have stored : (setTempRecord c w s).Done x := done.of_offering rfl
  unfold changeTemp
  dsimp only
  split
  · exact followed _ (stored.logged (occur_logged _ _ _ _))
  · split
    · exact followed _ (stored.logged (endCondition_logged _ _ _))
    · exact stored

theorem startConversion_done (done : s.Done x) : (startConversion s).Done x :=
  done.of_offering (startConversion_same State.offering (fun _ _ _ => rfl) s)

/-! ## Inputs of the arbiter -/

/-- A changed input of the arbiter leaves everything but the recomputation. -/
theorem State.Done.input (done : s.Done x)
    (same : (t.domains, t.accounts, t.caps, t.thermal, t.supply, t.contributors, t.grants) =
      (s.domains, s.accounts, s.caps, s.thermal, s.supply, s.contributors, s.grants)) :
    t.Done x ∨ x = .allocation := by
  simp only [Prod.mk.injEq] at same
  obtain ⟨domains, accounts, caps, thermal, supply, contributors, grants⟩ := same
  cases x with
  | allocation => exact .inr rfl
  | copy k d =>
    left
    cases k <;>
    · simp only [State.Done, Copy.Holds, accounts, caps, thermal, supply, contributors]
      exact done
  | grant d =>
    left
    simp only [State.Done, domains, contributors, grants]
    exact done

/-- The inputs of arbiter and resolver but REST, the allocation, the copies and the grants. -/
def State.offeringButRest (s : State) : LineState × SupplyReport × SupplyConfig × PerDomain DomainRecord ×
    PerDomain Account × PerDomain Caps × PerDomain Nat × Allocation × PerDomain Contributors × PerDomain Grant :=
  (s.inputs.acin.state, s.report, s.supplyCfg, s.domains, s.accounts, s.caps, s.thermal, s.supply, s.contributors,
    s.grants)

/-- REST as it was leaves everything, and another REST is recomputed with (R18, R96). -/
theorem restChange_done (done : s.Done x) (same : t.offeringButRest = s.offeringButRest) :
    (restChange (restValue s.powers.pm3 s.restFail) t).Done x := by
  simp only [State.offeringButRest, Prod.mk.injEq] at same
  obtain ⟨acin, report, supplyCfg, domains, accounts, caps, thermal, supply, contributors, grants⟩ := same
  unfold restChange
  split
  · rename_i unchanged
    refine done.of_offering ?_
    rw [State.offering, acin, report, supplyCfg, domains, accounts, caps, thermal, supply, contributors, grants,
      unchanged]
    rfl
  · refine (recomputeShares_done (done.input ?_)).endEvent
    rw [domains, accounts, caps, thermal, supply, contributors, grants]

/-! ## Power channels -/

theorem deliverToDomain_done (d : DomainId) (v : PowerChannel) (done : s.Done x) : (deliverToDomain d v s).Done x := by
  unfold deliverToDomain
  split
  · exact done
  · rename_i q power _
    obtain ⟨c, logged⟩ := complianceDelivery_logged d q power s
    have judged : (complianceDelivery d q power s).Done x :=
      State.Done.logged (s := setCompliance d c s) (done.of_offering rfl) logged
    exact (settleAccount_done d _ judged).endEvent

theorem deliverToWatch_done (old : ChannelState) (v : PowerChannel) (done : s.Done x) :
    (deliverToWatch old v s).Done x := by
  have delivered : ∀ power, (Machine.endEvent (watchDelivery power s)).Done x := by
    intro power
    obtain ⟨w, logged⟩ := watchDelivery_logged power s
    exact (State.Done.logged (s := { s with watch := w }) (done.of_offering rfl) logged).endEvent
  unfold deliverToWatch
  split
  · exact delivered _
  · exact delivered _
  · split
    · exact done
    · unfold watchFailure
      split
      · exact done.of_offering rfl
      · exact done
      · exact done
  · exact done
  · exact done

/-- An arrival at a power channel, with REST offered anew where it changed (R17, R18, R96). -/
theorem sampleDelivered_done (n : PowerId) (v : PowerChannel) (done : s.Done x) :
    (deliver n (s.powers.get n) v (reportPower n (s.powers.get n).state v.state (setPowerRecord n v s))).Done x := by
  have logged := reportPower_logged n (s.powers.get n).state v.state (setPowerRecord n v s)
  have stored : n ≠ .pm3 → (setPowerRecord n v s).Done x := by
    intro other
    refine done.of_offering ?_
    cases n with
    | pm3 => exact absurd rfl other
    | _ => rfl
  cases n with
  | pm0 => exact deliverToDomain_done .d0 v ((stored (by decide)).logged logged)
  | pm1 => exact deliverToDomain_done .d1 v ((stored (by decide)).logged logged)
  | pm2 => exact deliverToDomain_done .d2 v ((stored (by decide)).logged logged)
  | pm3 =>
    have restFail := logged.same State.restFail fun _ => rfl
    rw [deliver, restFail]
    exact restChange_done done (logged.same State.offeringButRest fun _ => rfl)
  | pm4 => exact deliverToWatch_done _ v ((stored (by decide)).logged logged)

/-! ## Classifier -/

theorem commit_offering (c : Place) (s : State) : (commit c s).offering = s.offering := by
  unfold commit
  dsimp only
  split
  · split <;> rfl
  · rfl

theorem reclassify_offering (s : State) : (reclassify s).offering = s.offering := by
  unfold reclassify
  dsimp only
  split
  · rfl
  · split
    · rfl
    · unfold setDwell
      split
      · rfl
      · exact commit_offering _ _
      · rfl

theorem classifierEvent_done (l : InputId) (edge : Bool) (done : s.Done x) : (classifierEvent l edge s).Done x := by
  refine deriveEffective_done (State.Done.of_offering ?_ (reclassify_offering _))
  split
  · exact done.of_offering rfl
  · exact done

/-- A level taken from ACIN is a change of the source, which the arbiter recomputes with (R96). -/
theorem takeLevel_done (l : InputId) (asserted : Bool) (done : s.Done x) : (takeLevel l asserted s).Done x := by
  have taken : (takenLevel l asserted s).Done x ∨ x = .allocation := by
    refine done.input ?_
    unfold takenLevel
    dsimp only
    split <;> rfl
  have single : ∀ edge, l ≠ .acin → (Machine.endEvent (classifierEvent l edge (takenLevel l asserted s))).Done x := by
    refine fun edge other => (classifierEvent_done l edge (done.of_offering ?_)).endEvent
    unfold takenLevel
    dsimp only
    cases l with
    | acin => exact absurd rfl other
    | _ => split <;> rfl
  have both : ∀ edge, (Machine.endEvent (inAnyOrder [classifierEvent .acin edge, recomputeShares]
      (takenLevel l asserted s))).Done x := by
    refine fun edge => State.Done.endEvent (State.Done.inAnyOrder ?_ (taken.imp id fun allocation =>
      ⟨recomputeShares, by simp, fun _ => recomputeShares_done (.inr allocation)⟩))
    simp only [List.mem_cons, List.not_mem_nil, or_false]
    rintro f (rfl | rfl) u done
    · exact classifierEvent_done _ _ done
    · exact recomputeShares_done (.inl done)
  unfold takeLevel
  cases l with
  | acin => exact both _
  | lid => exact single _ (by decide)
  | motion => exact single _ (by decide)
  | contact => exact single _ (by decide)

theorem startDebounce_done (l : InputId) (asserted : Bool) (done : s.Done x) : (startDebounce l asserted s).Done x := by
  unfold startDebounce
  dsimp only
  split
  · exact takeLevel_done l _ done
  · refine done.of_offering ?_
    cases l <;> rfl

theorem levelChange_done (l : InputId) (done : s.Done x) : (levelChange l s).Done x := by
  unfold levelChange
  dsimp only
  split
  · refine done.of_offering ?_
    cases l <;> rfl
  · exact startDebounce_done l _ done

/-- A record that keeps its debounced state leaves everything. -/
theorem storedInput_done {l : InputId} {v : InputLine} (state : v.state = (s.inputs.get l).state) (done : s.Done x) :
    State.Done { s with inputs := s.inputs.set l v } x := by
  refine done.of_offering ?_
  simp only [State.offering]
  rw [show (s.inputs.set l v).acin.state = s.inputs.acin.state from
    PerInput.apply_get_set (f := InputLine.state) state .acin]

/-! ## Configurations -/

theorem configureChannel_done (c : TempId) (cfg : ChannelConfig) (done : s.Done x) :
    (configureChannel c cfg s).Done x := by
  have voided : ∀ u : State, u.Done x → (voidConversion c u).Done x := fun u done => done.of_offering rfl
  unfold configureChannel
  dsimp only
  split
  · exact done
  · split
    · exact done.of_offering rfl
    · exact done.of_offering rfl
    · exact changeTemp_done c _ _ (voided _ (done.of_offering rfl))
    · exact changeTemp_done c _ _ (voided _ done)

theorem configurePower_done (n : PowerId) (interval hold fail : Nat) (done : s.Done x) :
    (configurePower n interval hold fail s).Done x := by
  unfold configurePower
  dsimp only
  split
  · exact restChange_done done rfl
  all_goals exact done.of_offering rfl

theorem configureInput_done (l : InputId) (cfg : InputConfig) (done : s.Done x) : (configureInput l cfg s).Done x := by
  have stored : State.Done { s with inputs := s.inputs.set l { s.inputs.get l with cfg := cfg } } x :=
    storedInput_done rfl done
  unfold configureInput
  dsimp only
  split
  · exact levelChange_done l stored
  · split
    · split
      · exact startDebounce_done l _ stored
      · exact stored
    · exact stored

theorem configureZone_done (z : ZoneId) (cfg : ZoneConfig) (done : s.Done x) : (configureZone z cfg s).Done x := by
  have left : ∀ v w, (Machine.endEvent (recomputeThermal (followSources z (leaveZone z v
      (setZoneRecord z w s))))).Done x := by
    intro v w
    refine State.Done.endEvent (recomputeThermal_done (followSources_done z (done.of_offering ?_)))
    unfold leaveZone
    dsimp only
    split <;> split <;> rfl
  unfold configureZone
  dsimp only
  split
  · exact done
  · split
    · exact done.of_offering rfl
    · exact left _ _
    · exact left _ _

theorem configureLadder_done (z : ZoneId) (steps : List LadderStep) (done : s.Done x) :
    (configureLadder z steps s).Done x := by
  have stored : ∀ w, (setZoneRecord z w s).Done x := fun w => done.of_offering rfl
  have moved : ∀ n w, (moveTo z n (setZoneRecord z w s)).Done x := fun n w => (stored w).of_offering rfl
  unfold configureLadder
  dsimp only
  split
  · exact done
  · split
    · exact (recomputeThermal_done (moved _ _)).endEvent
    · exact (recomputeThermal_done (stored _)).endEvent

theorem storeEntry_done (d : DomainId) (c : Column) (e : Entry) (done : s.Done x) : (storeEntry d c e s).Done x := by
  have stored : State.Done { s with profile := s.profile.set d ((s.profile.get d).set c e) } x := done.of_offering rfl
  unfold storeEntry
  dsimp only
  split
  · refine State.Done.endEvent (State.Done.inAnyOrder ?_ (.inl stored))
    simp only [List.mem_cons, List.not_mem_nil, or_false]
    rintro f (rfl | rfl) u done
    · exact settleAccount_done _ _ done
    · exact recomputeShares_done (.inl done)
  · exact stored

theorem storeLimits_done (z : ZoneId) (limits : PerColumn Int) (done : s.Done x) : (storeLimits z limits s).Done x := by
  have stored : State.Done { s with skin := s.skin.set z limits } x := done.of_offering rfl
  unfold storeLimits
  dsimp only
  split
  · exact stored
  · exact (recomputeThermal_done (zoneSwitch_done z stored)).endEvent

theorem configureLine_done (l : LineId) (cfg : LineConfig) (done : s.Done x) : (configureLine l cfg s).Done x := by
  unfold configureLine
  dsimp only
  split
  · exact done
  · exact State.Done.ended (s := setLineRecord l _ s) (done.of_offering rfl) (endEventWith_ended _ _)

theorem configureSupply_done (c : SupplyConfig) (done : s.Done x) : (configureSupply c s).Done x := by
  unfold configureSupply
  split
  · exact done
  · exact (recomputeShares_done (done.input (t := { s with supplyCfg := c }) rfl)).endEvent

theorem storeCap_done (d : DomainId) (port : Port) (cap : Option Nat) (done : s.Done x) :
    (storeCap d port cap s).Done x := by
  unfold storeCap
  dsimp only
  split
  · exact done
  · exact (offerCaps_done d (storedCaps_due done)).endEvent

theorem placeHint_done (hint : Option Hint) (done : s.Done x) : (placeHint hint s).Done x := by
  unfold placeHint
  split
  · exact done
  · exact (deriveEffective_done (done.of_offering (t := { s with hint := hint }) rfl)).endEvent

/-- Equal arbitration fields give equal shares (R99, R101). -/
theorem sharesOf_congr {pool : Nat} {records records' : PerDomain DomainRecord} {demand : PerDomain Nat}
    (same : ∀ d, (records'.get d).sameArbitration (records.get d) = true) :
    sharesOf pool records' demand = sharesOf pool records demand := by
  have fields : ∀ d, (records'.get d).arbitrated = (records.get d).arbitrated ∧
      (records'.get d).priority = (records.get d).priority ∧ (records'.get d).floor = (records.get d).floor := by
    intro d
    have eq := same d
    simp only [DomainRecord.sameArbitration, Bool.and_eq_true, beq_iff_eq] at eq
    exact ⟨eq.1.1, eq.1.2, eq.2⟩
  have floors : records'.map (·.floor) = records.map (·.floor) := by
    have floor := fun d => (fields d).2.2
    simp only [PerDomain.map, PerDomain.mk.injEq]
    exact ⟨floor .d0, floor .d1, floor .d2⟩
  simp only [sharesOf, serviceOrder, floors, fun d => (fields d).1, fun d => (fields d).2.1]

/-- A stored domain record leaves everything but the recomputation and the domain's resolution, which its arbitration
fields and its Lmin ask for (R115). -/
theorem storedDomain_due {d : DomainId} {r : DomainRecord} (done : s.Done x) :
    State.Done { s with domains := s.domains.set d r } x ∨
      (x = .allocation ∧ r.sameArbitration (s.domains.get d) = false) ∨
        (x = .grant d ∧ r.lmin ≠ (s.domains.get d).lmin) := by
  cases x with
  | allocation =>
    cases same : r.sameArbitration (s.domains.get d) with
    | false => exact .inr (.inl ⟨rfl, rfl⟩)
    | true =>
      left
      simp only [State.Done, allocationOf]
      rw [sharesOf_congr (records := s.domains)]
      · exact done
      · intro d'
        rw [PerDomain.get_set]
        split
        · rename_i own
          rw [own, same]
        · simp [DomainRecord.sameArbitration]
  | copy k d' => cases k <;> exact .inl done
  | grant d' =>
    by_cases own : d' = d
    · subst own
      by_cases same : r.lmin = (s.domains.get d').lmin
      · left
        simp only [State.Done, PerDomain.get_set_self, same]
        exact done
      · exact .inr (.inr ⟨rfl, same⟩)
    · left
      simp only [State.Done, PerDomain.get_set_of_ne _ _ _ _ own]
      exact done

theorem onlyIf_done {f : State → State} (b : Bool) (keeps : ∀ u : State, u.Done x → (f u).Done x) (u : State)
    (done : u.Done x) : (onlyIf b f u).Done x := by
  unfold onlyIf
  split
  · exact keeps u done
  · exact done

theorem configureDomain_done (d : DomainId) (r : DomainRecord) (done : s.Done x) : (configureDomain d r s).Done x := by
  unfold configureDomain
  dsimp only
  split
  · exact done
  · refine State.Done.endEvent (State.Done.inAnyOrder ?_ ((storedDomain_due done).imp id ?_))
    · simp only [List.mem_cons, List.not_mem_nil, or_false]
      rintro f (rfl | rfl | rfl | rfl)
      · exact onlyIf_done _ fun u => settleAccount_done d _
      · exact onlyIf_done _ fun u done => recomputeShares_done (.inl done)
      · exact onlyIf_done _ fun u done => resolve_done d (.inl done)
      · exact onlyIf_done _ fun u done => done.of_offering rfl
    · rintro (⟨allocation, changed⟩ | ⟨grant, changed⟩)
      · refine ⟨_, .tail _ (.head _), fun u => ?_⟩
        rw [onlyIf, changed]
        exact recomputeShares_done (.inr allocation)
      · refine ⟨_, .tail _ (.tail _ (.head _)), fun u => ?_⟩
        rw [onlyIf, bne_iff_ne.mpr changed]
        exact resolve_done d (.inr grant)

theorem elapse_offering (n : Nat) (s : State) : (elapse n s).offering = s.offering := rfl

/-! ## Events and requests -/

theorem done_events : KeptByEvents (fun _ => True) (State.Done · x) where
  pre _ _ _ := trivial
  time n s done := done.of_offering (elapse_offering n s)
  interval c s done := by
    unfold requestConversion
    split
    · exact State.Done.logged (s := setTempRecord c _ s) (done.of_offering rfl) (occur_logged _ _ _ _)
    · exact startConversion_done (done.of_offering rfl)
  conversionEnd j result s _ done _ := by
    have idle : State.Done { s with converter := none } x := done.of_offering rfl
    refine startConversion_done ?_
    split
    · exact idle
    · unfold handleOutcome
      dsimp only
      split <;> exact changeTemp_done _ _ _ idle
  sample n sample s _ done := sampleDelivered_done n _ done
  trip w s done _ := by
    have tripped : State.Done { s with watch := { s.watch with state := .tripped } } x := done.of_offering rfl
    exact (occurFatal_done _ _ _ tripped).endEvent
  level l high s done _ := levelChange_done l (storedInput_done rfl done)
  debounced l b s done _ := takeLevel_done l _ done
  dwell w s done _ := by
    unfold commitCandidate
    split
    · exact done.of_offering rfl
    · exact (deriveEffective_done (done.of_offering (commit_offering _ s))).endEvent
  zoneWaits z s done _ := done.of_offering rfl
  zoneUpdate z sum s done _ _ := (updateZone_done z sum done).endEvent
  settled d s done := done.of_offering rfl
  sensed l high s done := State.Done.ended (s := setLineRecord l _ s) (done.of_offering rfl) (compareLine_ended l _ _)
  sticks l w s done _ :=
    (occurFatal_done _ _ _ (done.of_offering (t := setLineRecord l _ s) rfl)).endEvent

theorem done_requests : KeptByRequests [] (fun _ => True) (State.Done · x) where
  clearNotices _ _ _ _ s done := done.of_offering rfl
  setNoticeMask _ _ _ _ s done := done.of_offering rfl
  clearFaults _ _ s done := done.of_offering rfl
  channel c cfg s _ done _ := configureChannel_done c cfg done
  power n interval hold fail s done := configurePower_done n interval hold fail done
  input _ l cfg s done _ := configureInput_done l cfg done
  timing _ _ s done := done.of_offering rfl
  zone z _ _ s done _ _ := configureZone_done z _ done
  ladder z steps s done _ := configureLadder_done z steps done
  profile _ d c e s done _ := storeEntry_done d c e done
  skin z limits s done _ := storeLimits_done z limits done
  domain _ d r s done _ _ := configureDomain_done d r done
  routing l cfg s done _ _ := configureLine_done l cfg done
  supplyConfig c s done _ := configureSupply_done c done
  report r s done := (recomputeShares_done (done.input (t := { s with report := r }) rfl)).endEvent
  cap _ d port cap s done _ := storeCap_done d port cap done
  hint _ hint s done _ := placeHint_done hint done
  force l level s done := State.Done.endEvent (s := setLineRecord l _ s) (done.of_offering rfl)
  activate _ s done _ _ :=
    (deriveColumn_done (done.of_offering (t := raise .mode { s with mode := .active }) rfl)).endEvent
  deactivate _ s done _ := (leaveActive_done done).endEvent

theorem exec_grantsSafe {i : Instr} (safe : s.GrantsSafe) (e : exec i s = .next t) : t.GrantsSafe := by
  by_cases reset : IsReset i
  · obtain ⟨edge, pins, lines, rfl⟩ := reset
    cases edge <;> cases e <;> exact grantsSafe_reset
  rw [grantsSafe_iff] at safe ⊢
  intro x
  cases transaction : callOf i with
  | some call =>
    exact done_requests.transaction (fun u l done => done.of_offering rfl) (by simp [transaction])
      (fun _ _ _ _ => List.not_mem_nil) trivial (safe x) e
  | none => exact done_events.event transaction reset trivial (safe x) e

end

/-- Settles O56: whatever a command leaves due to arbiter and resolver, the same command does. -/
theorem everyStepKeepsTheGrants : Obligations.EveryStepKeepsTheGrants :=
  step_keeps (fun _ _ safe => safe)
    (fun u safe => (grantsSafe_iff _).mpr fun x => ((grantsSafe_iff u).mp safe x).of_offering (elapse_offering 1 u))
    (fun _ _ _ safe e => exec_grantsSafe safe e)

end Sys2Proof.Machine

/-! # What an owner's reply places, and the classifier's commands (R22 to R32, R36, R38) -/

namespace Sys2Proof.Machine

open Sys2Proof

/-! ## Two consequences in an open order -/

/-- Two consequences in an open order are the one behind the other. -/
theorem inAnyOrder_two {P : State → Prop} (f g : State → State) (s : State)
    (first : ∀ k k', P (g { f { s with schedule := k } with schedule := k' }))
    (second : ∀ k k', P (f { g { s with schedule := k } with schedule := k' })) : P (inAnyOrder [f, g] s) := by
  have drawn : s.schedule % 2 = 0 ∨ s.schedule % 2 = 1 := by omega
  rcases drawn with zero | one
  · simp only [inAnyOrder, List.length, drawOrder, Nat.mod_one, zero, Nat.reduceAdd, List.eraseIdx, List.getD]
    exact first _ _
  · simp only [inAnyOrder, List.length, drawOrder, Nat.mod_one, one, Nat.reduceAdd, List.eraseIdx, List.getD]
    exact second _ _

/-! ## A request that passes the checks -/

/-- A request of the shape of its kind that passes checks 3 and 4 of R169 is its owner's. -/
theorem exec_served {kind : Kind} {port : Port} {body : List Byte} {s t : State} {reply : Reply}
    (running : s.inReset = false) (admitted : Admitted kind port s) (own : serve kind port body s = some (t, reply)) :
    exec (requestOf kind (s.call port) body) s = .next (answer port kind reply t) := by
  have short : body.length ≤ 60 := shaped.length_le ((serve_isSome kind port body s).mp (by rw [own]; rfl))
  rw [exec_request running short, respond_served admitted own]

/-- Port P takes a kind with no mode named in either mode. -/
theorem admitted_platform {kind : Kind} {s : State} (anyMode : modeNamed kind .platform = none) :
    Admitted kind .platform s :=
  ⟨rfl, by rw [modeAllows, anyMode]⟩

/-- Port P takes in SAFE a kind that SAFE is named for. -/
theorem admitted_safe {kind : Kind} {s : State} (named : modeNamed kind .platform = some .safe)
    (mode : s.mode = .safe) : Admitted kind .platform s :=
  ⟨rfl, by rw [modeAllows, named, mode]; rfl⟩

/-- An OK reply, CLAMPED where a value was adjusted (R171). -/
theorem answer_adjusted (port : Port) (kind : Kind) {adjusted : Bool} {kept : Prop} [Decidable kept]
    (same : adjusted = false ↔ kept) (fields : List Byte) (t : State) :
    answer port kind (.taken adjusted fields) t =
      place port (frame (replyKind (kindCode kind)) ((if kept then 0 else 1) :: fields)) t := by
  rw [answer, replyFrame, Reply.taken]
  cases adjusted with
  | false => simp [same.mp rfl, Status.code]
  | true => simp [show ¬kept from fun h => (by cases same.mpr h), Status.code]

/-- An OK reply, CLAMPED where the adjusted value is another (R171). -/
theorem answer_taken {α : Type} [BEq α] [LawfulBEq α] [DecidableEq α] (port : Port) (kind : Kind) (x y : α)
    (fields : List Byte) (t : State) :
    answer port kind (.taken (x != y) fields) t =
      place port (frame (replyKind (kindCode kind)) ((if x = y then 0 else 1) :: fields)) t :=
  answer_adjusted port kind bne_eq_false_iff_eq fields t

/-! ## Records replaced twice -/

theorem PerInput.set_set {α : Type} (v : PerInput α) (i : InputId) (x y : α) : (v.set i x).set i y = v.set i y := by
  cases i <;> rfl

/-! ## A level change (R22 to R24) -/

/-- Settles O21: the level change on the stored pin level, by the table of R24. -/
theorem levelChangeIsDebounced : Obligations.LevelChangeIsDebounced := by
  intro l high s running line asserted e put
  have happens : e = .next (if line.pinHigh = high then s else levelChange l (put { line with pinHigh := high })) := by
    simp only [e, exec, execInputLevelChange, outsideReset_running _ s running]
    rfl
  have changes : line.pinHigh ≠ high → e = .next (levelChange l (put { line with pinHigh := high })) := fun changed =>
    happens.trans (by rw [if_neg changed])
  refine ⟨fun same => happens.trans (by rw [if_pos same]), fun changed back => ?_, fun changed away debounced => ?_,
    fun changed away immediate => ?_⟩
  all_goals
    rw [changes changed]
    unfold levelChange
    simp only [put, PerInput.get_set_self, PerInput.set_set]
  · rw [if_pos back]
  · rw [if_neg away, startDebounce]
    simp only [PerInput.get_set_self, if_neg debounced, PerInput.set_set]
    rfl
  · rw [if_neg away, startDebounce]
    simp only [PerInput.get_set_self, if_pos immediate]
    rfl

/-! ## SET_INPUT and SET_POSTURE_TIMING (R26, R27, R31) -/

/-- Settles O24: the owner clamps the debounce, and the fields stand before the effect of a changed one is taken. -/
theorem setInputConfiguresTheLine : Obligations.SetInputConfiguresTheLine := by
  intro body r s running mode shape
  have taken : ∀ {t reply}, ownSetInput r s = (t, reply) →
      exec (.setInput (s.call .platform) body) s = .next (answer .platform .setInput reply t) := fun own =>
    exec_served (kind := .setInput) running (admitted_safe rfl mode) (served_eq_some.mpr ⟨r, shape, own⟩)
  refine ⟨fun unknown =>
    taken (t := s) (reply := .bare .invalid) (by rw [ownSetInput, InputId.ofNumber_of_le unknown]), fun l named => ?_⟩
  intro line debounce cfg asserted put
  have clamped : clampNat 0 1000 r.cfg.debounce = debounce := by
    rw [clampNat_eq _ _ _ (by decide), Nat.zero_max]
  have own : ownSetInput r s = (configureInput l cfg s, .taken (debounce != r.cfg.debounce) (leBytes 2 debounce)) := by
    rw [ownSetInput, named, InputId.ofNumber_number]
    simp only [clamped]
    rfl
  refine ⟨configureInput l cfg s, (taken own).trans (by rw [answer_taken]; rfl), fun polarity same => ?_,
    fun polarity away => ?_, fun b polarity changed debouncing => ?_, fun polarity rest => ?_⟩
  all_goals
    unfold configureInput
    simp only [PerInput.get_set_self]
  · rw [if_pos polarity, levelChange]
    simp only [PerInput.get_set_self, PerInput.set_set]
    rw [if_pos same]
  · rw [if_pos polarity, levelChange]
    simp only [PerInput.get_set_self, PerInput.set_set]
    rw [if_neg away, startDebounce]
    simp only [PerInput.get_set_self, PerInput.set_set]
    rfl
  · have held : (s.inputs.get l).debouncing = some b := debouncing
    rw [if_neg (not_not_intro polarity), held]
    simp only
    rw [if_pos changed, startDebounce]
    simp only [PerInput.get_set_self, PerInput.set_set]
    rfl
  · rw [if_neg (not_not_intro polarity)]
    split
    · rename_i b debouncing
      rw [if_neg]
      intro changed
      rcases rest with same | idle
      · exact changed same
      · cases idle.symm.trans debouncing
    · rfl

/-- SET_POSTURE_TIMING clamps both dwells and stores them (R31). -/
theorem setPostureTiming_stores {body : List Byte} {s : State} (running : s.inReset = false)
    (length : body.length = 6) :
    exec (.setPostureTiming (s.call .platform) body) s = .next
      (place .platform
        (frame 0xA3
          ((if min 10000 (u16 body 0) = u16 body 0 ∧ min 120000 (u32 body 2) = u32 body 2 then 0 else 1) ::
            (leBytes 2 (min 10000 (u16 body 0)) ++ leBytes 4 (min 120000 (u32 body 2)))))
        { s with enterDwell := min 10000 (u16 body 0), relaxDwell := min 120000 (u32 body 2) }) := by
  have shape : shapeSetPostureTiming body = some ⟨u16 body 0, u32 body 2⟩ := if_pos length
  refine (exec_served (kind := .setPostureTiming) (t := (ownSetPostureTiming ⟨u16 body 0, u32 body 2⟩ s).1)
    (reply := (ownSetPostureTiming ⟨u16 body 0, u32 body 2⟩ s).2) running (admitted_platform rfl)
    (served_eq_some.mpr ⟨_, shape, rfl⟩)).trans ?_
  simp only [ownSetPostureTiming, clampNat_eq _ _ _ (Nat.zero_le _), Nat.zero_max]
  exact congrArg Host.Outcome.next (answer_adjusted _ _ (by simp) _ _)

/-! ## The dwell timer (R30, R32, R38) -/

theorem commit_hint (c : Place) (s : State) :
    (commit c s).hint = (match s.hint with
      | some h => if h.origin = .system ∧ h.place.rank < c.rank then none else some h
      | none => none) := by
  unfold commit
  dsimp only
  split
  · rename_i h held
    split
    · rename_i drops
      simp only [held, if_pos drops]
      rfl
    · rename_i stays
      simp only [held, if_neg stays]
  · rename_i empty
    simp only [empty]

theorem commit_committed (c : Place) (s : State) : (commit c s).committed = c.posture := by
  unfold commit
  dsimp only
  split
  · split <;> rfl
  · rfl

theorem commit_caps (c : Place) (s : State) : (commit c s).caps = s.caps := by
  unfold commit
  dsimp only
  split
  · split <;> rfl
  · rfl

theorem with_candidate {s : State} {candidate : Option Place} (same : s.candidate = candidate) :
    { s with candidate := candidate } = s := by
  rw [← same]

/-- A commitment that empties the slot raises HINT_DROPPED (R38). -/
theorem commit_raises {c : Place} {s : State} (held : s.hint.isSome = true) (dropped : (commit c s).hint = none) :
    Raised .hintDropped (commit c s) := by
  unfold commit at dropped ⊢
  dsimp only at dropped ⊢
  split at dropped
  · rename_i h hint
    split at dropped
    · rename_i drops
      simp only [hint, if_pos drops]
      exact raised_raise .hintDropped _
    · rw [hint] at dropped
      cases dropped
  · rename_i empty
    rw [empty] at held
    cases held

/-- Settles O23: the commitment with what follows it, and the clamped dwells stored. -/
theorem dwellExpiryCommitsTheCandidate : Obligations.DwellExpiryCommitsTheCandidate := by
  refine ⟨fun w c s running dwell due candidate => ?_,
    fun body s running length => setPostureTiming_stores running length⟩
  have happens : exec .dwellExpiry s = .next (endEvent (deriveEffective (commit c s))) := by
    simp only [exec, execDwellExpiry, outsideReset_running _ s running, dwell, await_of_due w s due, commitCandidate,
      candidate]
  have ended := fun {α : Type} (f : State → α) blind => (endEvent_ended (deriveEffective (commit c s))).same f blind
  have fallen := fun {α : Type} (f : State → α) blind => (deriveEffective_fallen (commit c s)).same f blind
  obtain ⟨sameCandidate, -, idle, -, mode, effective⟩ := commit_leaves c s
  have stays : (endEvent (deriveEffective (commit c s))).candidate = s.candidate :=
    (ended State.candidate fun _ => rfl).trans ((fallen State.candidate fun _ => rfl).trans sameCandidate)
  have hint : (endEvent (deriveEffective (commit c s))).hint = (commit c s).hint :=
    (ended State.hint fun _ => rfl).trans (deriveEffective_hint _)
  have committed : (endEvent (deriveEffective (commit c s))).committed = (commit c s).committed :=
    (ended State.committed fun _ => rfl).trans (fallen State.committed fun _ => rfl)
  have posture : (endEvent (deriveEffective (commit c s))).effective =
      effectiveOf (commit c s).hint (commit c s).committed :=
    (ended State.effective fun _ => rfl).trans (deriveEffective_effective _)
  refine ⟨_, happens, committed.trans (commit_committed c s), ?_, ?_, hint.trans (commit_hint c s),
    fun held dropped => ?_, ?_, fun changed => ?_, ?_, ?_, ?_⟩
  · exact (ended State.dwell fun _ => rfl).trans ((fallen State.dwell fun _ => rfl).trans idle)
  · exact stays
  · have raised := commit_raises held (hint.symm.trans dropped)
    exact (raised.of_pendingOn (deriveEffective_pendingOn (by decide) (by decide) _)).of_pendingOn
      (endEvent_pendingOn (by decide) _)
  · rw [posture, hint, committed]
    rfl
  · have raised : Raised .posture (deriveEffective (commit c s)) := by
      refine deriveEffective_raises _ ?_
      rw [deriveEffective_effective, ← posture, effective]
      exact changed
    exact raised.of_pendingOn (endEvent_pendingOn (by decide) _)
  · exact (ended State.mode fun _ => rfl).trans ((deriveEffective_mode _).trans mode)
  · exact (ended State.caps fun _ => rfl).trans ((deriveEffective_caps _).trans (commit_caps c s))
  · have dwellOnly := commitCandidate_dwellOnly s
    rw [commitCandidate, candidate] at dwellOnly
    exact with_candidate stays ▸ same_of_erased (fun u => u.withoutEvent.withoutDwell)
      (fun u => { u with candidate := s.candidate, dwell := s.dwell, committed := s.committed }.withoutEvent)
      (fun _ => rfl) dwellOnly

/-! ## A level taken (R25, R28, R29, R36) -/

/-- The classifier's inputs and what it holds. -/
def State.posturing (s : State) : Option Place × Option Place × Option Timer × Posture × Option Hint × Posture × Mode ×
    PerDomain Caps × Nat × Nat :=
  (s.classified, s.candidate, s.dwell, s.committed, s.hint, s.effective, s.mode, s.caps, s.enterDwell, s.relaxDwell)

/-- The dwell that a changed candidate waits for (R29). -/
def dwellTime (c : Place) (s : State) : Nat :=
  if s.committed = .unsettled ∨ (s.committed = .desk ∧ c ≠ .desk) ∨ (s.committed = .lap ∧ c = .bag) then s.enterDwell
  else s.relaxDwell

/-- A dwell timer starts for every candidate but the committed posture, with the dwell of its direction (R29). -/
theorem dwellFor_eq (c : Place) (s : State) :
    dwellFor c s.committed s.enterDwell s.relaxDwell =
      if c.posture = s.committed then none else some (dwellTime c s) := by
  rw [dwellTime]
  cases c <;> cases s.committed <;> simp [dwellFor, Posture.place, Place.posture, Place.rank]

/-- What a changed debounced state makes of s at the classifier (R25, R28, R29, R32, R36). -/
structure Reclassified (drops : Prop) (s t : State) : Prop where
  classified : t.classified = s.classified
  candidate : t.candidate = s.classified
  unchanged : s.classified = s.candidate → t.committed = s.committed ∧ t.dwell = s.dwell
  changed : ∀ c, s.classified = some c → s.candidate ≠ some c →
    if c.posture = s.committed then t.dwell = none ∧ t.committed = s.committed
    else if dwellTime c s = 0 then t.dwell = none ∧ t.committed = c.posture
    else t.dwell = some (Timer.start (dwellTime c s)) ∧ t.committed = s.committed
  dropped : drops → t.hint = none
  kept : ¬drops → t.committed = s.committed → t.hint = s.hint
  effective : t.effective = effectiveOf t.hint t.committed
  mode : t.mode = s.mode
  caps : t.caps = s.caps

theorem Reclassified.congr {drops : Prop} {s s' t t' : State} (h : Reclassified drops s t)
    (before : s'.posturing = s.posturing) (after : t'.posturing = t.posturing) : Reclassified drops s' t' := by
  simp only [State.posturing, Prod.mk.injEq] at before after
  obtain ⟨classified, candidate, dwell, committed, hint, -, mode, caps, enter, relax⟩ := before
  obtain ⟨classified', candidate', dwell', committed', hint', effective', mode', caps', -⟩ := after
  constructor
  all_goals simp only [classified, candidate, dwell, committed, hint, mode, caps, enter, relax, classified',
    candidate', dwell', committed', hint', effective', mode', caps', dwellTime]
  · exact h.classified
  · exact h.candidate
  · exact h.unchanged
  · exact h.changed
  · exact h.dropped
  · exact h.kept
  · exact h.effective
  · exact h.mode
  · exact h.caps

/-- What a classification makes of s with this hint, before the effective posture follows (R28, R29, R38). -/
structure Classifies (hint : Option Hint) (s t : State) : Prop where
  classified : t.classified = s.classified
  candidate : t.candidate = s.classified
  unchanged : s.classified = s.candidate → t.committed = s.committed ∧ t.dwell = s.dwell
  changed : ∀ c, s.classified = some c → s.candidate ≠ some c →
    if c.posture = s.committed then t.dwell = none ∧ t.committed = s.committed
    else if dwellTime c s = 0 then t.dwell = none ∧ t.committed = c.posture
    else t.dwell = some (Timer.start (dwellTime c s)) ∧ t.committed = s.committed
  kept : t.committed = s.committed → t.hint = hint
  empty : hint = none → t.hint = none
  mode : t.mode = s.mode
  caps : t.caps = s.caps

/-- A changed candidate sets the dwell timer as R29 says, a dwell of 0 commits it at once. -/
theorem setDwell_changes {c : Place} {s : State} (place : s.classified = some c) (changed : s.candidate ≠ some c) :
    Classifies s.hint s (setDwell c { s with candidate := some c }) := by
  have dwell := dwellFor_eq c s
  unfold setDwell
  dsimp only
  rw [dwell]
  by_cases home : c.posture = s.committed
  · rw [if_pos home]
    exact {
      classified := rfl, candidate := place.symm, unchanged := fun same => absurd (same.symm.trans place) changed
      changed := fun c' place' _ => by
        obtain rfl : c = c' := Option.some.inj (place.symm.trans place')
        rw [if_pos home]
        exact ⟨rfl, rfl⟩
      kept := fun _ => rfl, empty := id, mode := rfl, caps := rfl }
  · rw [if_neg home]
    cases time : dwellTime c s with
    | zero =>
      obtain ⟨candidate, classified, idle, -, mode, -⟩ := commit_leaves c { s with candidate := some c }
      have committed := commit_committed c { s with candidate := some c }
      exact {
        classified := classified, candidate := candidate.trans place.symm
        unchanged := fun same => absurd (same.symm.trans place) changed
        changed := fun c' place' _ => by
          obtain rfl : c = c' := Option.some.inj (place.symm.trans place')
          rw [if_neg home, if_pos time]
          exact ⟨idle, committed⟩
        kept := fun stays => absurd (committed.symm.trans stays) home
        empty := fun empty => by
          rw [commit_hint]
          simp only [empty]
        mode := mode, caps := commit_caps c _ }
    | succ duration =>
      exact {
        classified := rfl, candidate := place.symm, unchanged := fun same => absurd (same.symm.trans place) changed
        changed := fun c' place' _ => by
          obtain rfl : c = c' := Option.some.inj (place.symm.trans place')
          rw [if_neg home, if_neg (by omega), time]
          exact ⟨rfl, rfl⟩
        kept := fun _ => rfl, empty := id, mode := rfl, caps := rfl }

theorem reclassify_changes (s : State) : Classifies s.hint s (reclassify s) := by
  unfold reclassify
  dsimp only
  split
  · rename_i same
    exact {
      classified := rfl, candidate := same.symm, unchanged := fun _ => ⟨rfl, rfl⟩
      changed := fun c place other => absurd (same.symm.trans place) other
      kept := fun _ => rfl, empty := id, mode := rfl, caps := rfl }
  · rename_i other
    split
    · rename_i undetermined
      exact {
        classified := rfl, candidate := undetermined.symm, unchanged := fun same => absurd same other
        changed := fun c place => by cases undetermined.symm.trans place
        kept := fun _ => rfl, empty := id, mode := rfl, caps := rfl }
    · rename_i c place
      exact setDwell_changes place fun same => other (place.trans same.symm)

/-- The effective posture follows the classification (R32). -/
theorem Classifies.derived {hint : Option Hint} {drops : Prop} {s t : State} (h : Classifies hint s t)
    (dropped : drops → hint = none) (kept : ¬drops → hint = s.hint) : Reclassified drops s (deriveEffective t) := by
  have same := (deriveEffective_fallen t).same (fun u => (u.classified, u.candidate, u.dwell, u.committed)) fun _ => rfl
  simp only [Prod.mk.injEq] at same
  obtain ⟨classified, candidate, dwell, committed⟩ := same
  constructor
  all_goals simp only [classified, candidate, dwell, committed, deriveEffective_hint, deriveEffective_effective,
    deriveEffective_mode, deriveEffective_caps]
  · exact h.classified
  · exact h.candidate
  · exact h.unchanged
  · exact h.changed
  · exact fun drops => h.empty (dropped drops)
  · exact fun stays same => (h.kept same).trans (kept stays)
  · exact h.mode
  · exact h.caps

/-- An edge of LID or ACIN empties the hint slot, and the effective posture follows (R32, R36). -/
theorem classifierEvent_reclassifies (l : InputId) (edge : Bool) (s : State) :
    Reclassified (edge = true ∧ dropsHeldHint l = true) s (classifierEvent l edge s) := by
  unfold classifierEvent
  split
  · rename_i drops
    simp only [Bool.and_eq_true] at drops
    have h := reclassify_changes (dropHint s)
    exact Classifies.derived (hint := none)
      ⟨h.classified, h.candidate, h.unchanged, h.changed, h.kept, h.empty, h.mode, h.caps⟩ (fun _ => rfl)
      fun stays => absurd drops.1 stays
  · rename_i stays
    refine (reclassify_changes s).derived (fun drops => ?_) fun _ => rfl
    rw [← Option.not_isSome_iff_eq_none]
    exact fun held => stays (by simp [drops, held])

/-- A taken level is handed to the classifier, at ACIN before or behind the arbiter (R25, R96). -/
theorem takeLevel_reclassifies (l : InputId) (asserted : Bool) (s : State) :
    Reclassified ((s.inputs.get l).state ≠ .undetermined ∧ dropsHeldHint l = true) (takenLevel l asserted s)
      (takeLevel l asserted s) := by
  have ended : ∀ u, (endEvent u).posturing = u.posturing := fun u =>
    (endEvent_ended u).same State.posturing fun _ => rfl
  have shares : ∀ u, (recomputeShares u).posturing = u.posturing := fun u =>
    (recomputeShares_offered u).same State.posturing fun _ => rfl
  have drawn : ∀ (u : State) k, State.posturing { u with schedule := k } = u.posturing := fun _ _ => rfl
  have edge : ∀ k, ((s.inputs.get l).state != .undetermined) = true ∧ dropsHeldHint k = true ↔
      (s.inputs.get l).state ≠ .undetermined ∧ dropsHeldHint k = true := fun k => by simp
  have single := classifierEvent_reclassifies l ((s.inputs.get l).state != .undetermined)
  simp only [edge] at single
  unfold takeLevel
  cases l with
  | acin =>
    refine Reclassified.congr ?_ rfl (ended _)
    refine inAnyOrder_two _ _ _ (fun k k' => ?_) fun k k' => ?_
    · exact (single _).congr (drawn _ k).symm (((shares _).trans (drawn _ k')))
    · exact (single _).congr ((drawn _ k').trans ((shares _).trans (drawn _ k))).symm rfl
  | lid => exact (single _).congr rfl (ended _)
  | motion => exact (single _).congr rfl (ended _)
  | contact => exact (single _).congr rfl (ended _)

/-- The candidate of the four debounced states, in words (R28). -/
theorem classify_eq (lid acin motion contact : LineState) :
    classify lid acin motion contact =
      if lid = .undetermined ∨ acin = .undetermined ∨ motion = .undetermined ∨ contact = .undetermined then none
      else if lid = .asserted then
        if motion = .asserted ∨ acin = .deasserted then some .bag else some .desk
      else if contact = .asserted ∨ motion = .asserted then some .lap
      else some .desk := by
  cases lid <;> cases acin <;> cases motion <;> cases contact <;> rfl

/-- Settles O22: the expiry takes the tentative level, and a taken level is handed to the classifier. -/
theorem takenLevelIsHandedOn : Obligations.TakenLevelIsHandedOn := by
  refine ⟨fun l b s running debouncing due => ?_, fun l asserted s => ?_⟩
  · simp only [exec, execDebounceExpiry, outsideReset_running _ s running, debouncing, await_of_due b.timer s due]
  intro line t drops
  have inputs := takeLevel_inputs l asserted s
  have start : State.posturing { s with inputs := t.inputs } = (takenLevel l asserted s).posturing := by
    rw [inputs]
    unfold takenLevel
    dsimp only
    split <;> rfl
  have h := (takeLevel_reclassifies l asserted s).congr start rfl
  have edges : dropsHeldHint l = true ↔ l = .lid ∨ l = .acin := by cases l <;> decide
  rw [edges] at h
  refine ⟨inputs, h.candidate.trans (classify_eq _ _ _ _), fun same => h.unchanged (h.candidate.symm.trans same),
    fun c place other => h.changed c (h.candidate.symm.trans place) other, h.dropped, h.kept, h.effective, h.mode,
    h.caps, ?_⟩
  exact same_of_erased (fun u => u.withoutEvent.withoutDwell)
    (fun u => { u with
      inputs := s.inputs, candidate := s.candidate, dwell := s.dwell, committed := s.committed }.withoutEvent)
    (fun _ => rfl) (takeLevel_dwellOnly l asserted s)

end Sys2Proof.Machine

/-! # The throttle lines' commands (R129 to R139) -/

namespace Sys2Proof.Machine

open Sys2Proof

/-! ## The end of an event at a line -/

theorem PerLine.set_set {α : Type} (v : PerLine α) (i : LineId) (x y : α) : (v.set i x).set i y = v.set i y := by
  cases i <;> rfl

/-- A record that follows its sources is as its derivation leaves it. -/
theorem ThrottleLine.Follows.derived {v : ThrottleLine} {view : SourceView} (h : v.Follows view) :
    v.derived view = v := by
  obtain ⟨hview, drive, cause, pin⟩ := h
  unfold ThrottleLine.derived
  dsimp only
  rw [← drive, ← cause, ← pin, ← hview]

/-- A line that follows its sources is left by the end of an event. -/
theorem deriveLine_of_follows {l : LineId} {s : State}
    (h : (s.lines.get l).Follows (viewOf s (s.lines.get l).cfg.routing)) : deriveLine false l s = s := by
  unfold deriveLine
  dsimp only
  rw [h.derived, bne_self_eq_false, Bool.or_false, if_neg Bool.false_ne_true, setLineRecord, PerLine.set_get_self]

theorem State.LinesSafe.follows {s : State} (safe : s.LinesSafe) (l : LineId) :
    (s.lines.get l).Follows (viewOf s (s.lines.get l).cfg.routing) :=
  ((ThrottleLine.safe_iff _ _).mp (safe l)).1

/-- With every line following its sources the end of an event changes nothing. -/
theorem endEvent_of_follows {s : State} (h : ∀ l, (s.lines.get l).Follows (viewOf s (s.lines.get l).cfg.routing)) :
    endEvent s = s := by
  have each : ∀ l, deriveLine false l s = s := fun l => deriveLine_of_follows (h l)
  unfold endEvent endEventWith
  simp only [show ∀ l : LineId, (none == some l) = false from fun _ => rfl, each]
  rw [if_pos trivial]

/-- The record that the end of an event leaves of a line. -/
theorem endEventWith_record (fresh : Option LineId) (l : LineId) (s : State) :
    let v := s.lines.get l
    let next := v.derived (viewOf s v.cfg.routing)
    (endEventWith fresh s).lines.get l =
      if next.drive != v.drive || fresh == some l then next.comparedAfter .driven else next := by
  rw [endEventWith_line]
  exact deriveLine_line (fresh == some l) l s

/-- The end of an event after another record of one line leaves the other lines, where those follow their sources. -/
theorem endEventWith_others {fresh : Option LineId} {l l' : LineId} {w : ThrottleLine} {s : State}
    (other : l' ≠ l) (stale : fresh ≠ some l') (safe : s.LinesSafe) :
    (endEventWith fresh (setLineRecord l w s)).lines.get l' = s.lines.get l' := by
  have same : (setLineRecord l w s).lines.get l' = s.lines.get l' := PerLine.get_set_of_ne _ _ _ _ other
  have follows : ((setLineRecord l w s).lines.get l').Follows
      (viewOf (setLineRecord l w s) ((setLineRecord l w s).lines.get l').cfg.routing) := by
    rw [same]
    exact safe.follows l'
  rw [endEventWith_line, beq_eq_false_iff_ne.mpr stale, deriveLine_of_follows follows, same]

/-! ## SENSED_LEVEL_CHANGE (R130, R137 to R139) -/

/-- A comparison is the compared record and, where it ends LINE_STUCK, the condition's end (R137 to R139). -/
theorem compareLine_eq (l : LineId) (event : Comparison) (s : State) :
    let v := s.lines.get l
    compareLine l event s =
      { s with
        lines := s.lines.set l (v.comparedAfter event)
        faults := if v.stuck && !mismatch v.cfg.output v.drive v.sensed then
            (endCondition .lineStuck l.number s).faults
          else s.faults } := by
  have lines := compareLine_lines l event s
  unfold compareLine at lines ⊢
  dsimp only at lines ⊢
  rw [← lines]
  cases differs : mismatch (s.lines.get l).cfg.output (s.lines.get l).drive (s.lines.get l).sensed <;>
    cases stuck : (s.lines.get l).stuck <;> rfl

theorem externalOf_eq (output : OutputType) (drive sensed : Bool) :
    externalOf output drive sensed = (decide (output = .openDrain) && !drive && sensed) := by
  cases output <;> rfl

/-- A running window timer runs on, an idle one starts (R138). -/
theorem windowAfterMismatch_sensed (window : Nat) (timer : Option Timer) :
    windowAfterMismatch .sensed window timer = some (timer.getD (Timer.start window)) := by
  cases timer <;> rfl

theorem endCondition_records (kind : FaultKind) (n : Nat) (s : State) :
    (endCondition kind n s).faults =
      s.faults.map fun r => if r.kind = kind ∧ r.subject = n then { r with present := some false } else r :=
  List.map_congr_left fun r _ => by simp only [isOf_iff]

/-- Settles O38: the comparison of the record with the new sensed level. -/
theorem sensedChangeIsCompared : Obligations.SensedChangeIsCompared := by
  intro l high s running v e sensed bad
  have happens : e = .next (if v.pinHigh = high then s else
      compareLine l .sensed (setLineRecord l { v with pinHigh := high, sensed := sensed } s)) := by
    simp only [e, exec, execSensedLevelChange, outsideReset_running _ s running]
    rfl
  refine ⟨fun same => happens.trans (by rw [if_pos same]), fun changed => happens.trans ?_⟩
  rw [if_neg changed, compareLine_eq]
  simp only [setLineRecord, PerLine.get_set_self, PerLine.set_set, endCondition_records, ThrottleLine.comparedAfter,
    externalOf_eq, windowAfterMismatch_sensed]
  have differs : mismatch v.cfg.output v.drive sensed = bad := rfl
  rw [differs]
  cases bad <;> rfl

/-! ## FORCE_LINE (R129, R131, R132, R134) -/

theorem setsMeet_iff (a b : DomainSet) : setsMeet a b = true ↔ ∃ d, a.get d = true ∧ b.get d = true := by
  simp only [DomainId.exists_iff, setsMeet, Bool.or_eq_true, Bool.and_eq_true, or_assoc]
  rfl

theorem Zone.trips_iff (routing : DomainSet) (v : Zone) :
    v.trips routing = true ↔ v.state = .tripped ∧ ∃ d, v.cfg.influence.get d = true ∧ routing.get d = true := by
  rw [Zone.trips, Bool.and_eq_true, beq_iff_eq, setsMeet_iff]

/-- The protective sources of a routing (R131). -/
theorem viewOf_iff (s : State) (routing : DomainSet) :
    ((viewOf s routing).supplyTrip = true ↔ s.watch.state = .tripped) ∧
      ((viewOf s routing).zoneTrip = true ↔ ∃ z, (s.zones.get z).trips routing = true) ∧
      ((viewOf s routing).excess = true ↔ ∃ d, routing.get d = true ∧ (s.compliance.get d).state = .excess) ∧
      ((viewOf s routing).floor = true ↔ ∃ d, routing.get d = true ∧ (s.grants.get d).floorApplied = true) := by
  simp only [viewOf, DomainId.exists_iff, ZoneId.exists_iff, Bool.or_eq_true, Bool.and_eq_true, beq_iff_eq, or_assoc]
  exact ⟨trivial, Iff.rfl, trivial, trivial⟩

/-- What the end of an event leaves of a record's configuration and sources: a comparison reaches none of them. -/
theorem endEvent_derives (l : LineId) (s : State) :
    let v := s.lines.get l
    let view := viewOf s v.cfg.routing
    let w := (endEvent s).lines.get l
    w.cfg = v.cfg ∧ w.manual = v.manual ∧ w.view = view ∧ w.drive = driveOf view v.manual ∧
      w.cause = causeOf view v.manual ∧ w.pinOut = pinOutOf v.cfg.output v.cfg.polarity w.drive := by
  intro v view w
  have record : w = _ := endEventWith_record none l s
  rw [record]
  split <;> exact ⟨rfl, rfl, rfl, rfl, rfl, rfl⟩

theorem shapeForceLine_level (b : Byte) (level : Bool) :
    shapeForceLine [b, if level then 1 else 0] = some ⟨b.toNat, level⟩ := by
  cases level <;> rfl

/-- Settles O40: the sources and outputs of the tables, and the manual level stored in front of the end of an event. -/
theorem forceLineSetsTheManualLevel : Obligations.ForceLineSetsTheManualLevel := by
  refine ⟨fun routing s => ?_, fun drive => (by cases drive <;> exact ⟨rfl, rfl, rfl⟩), ?_⟩
  · obtain ⟨supplyTrip, zoneTrip, excess, floor⟩ := viewOf_iff s routing
    refine ⟨supplyTrip, zoneTrip.trans (exists_congr fun z => ?_), excess, floor⟩
    rw [Zone.trips_iff, ← exists_and_left]
  intro b level s running e
  have taken : ∀ {t reply}, ownForceLine ⟨b.toNat, level⟩ s = (t, reply) →
      e = .next (answer .platform .forceLine reply t) := fun own =>
    exec_served (kind := .forceLine) running (admitted_platform rfl)
      (served_eq_some.mpr ⟨_, shapeForceLine_level b level, own⟩)
  refine ⟨fun unknown => ?_, ?_⟩
  · exact taken (t := s) (reply := .bare .invalid) (by rw [ownForceLine, LineId.ofNumber_of_le unknown])
  · intro l named v view
    have own : ownForceLine ⟨b.toNat, level⟩ s =
        (if v.manual = level then s else endEvent (setLineRecord l { v with manual := level } s), .bare .ok) := by
      rw [ownForceLine, named, LineId.ofNumber_number]
    refine ⟨_, taken own, fun same => by rw [if_pos same], fun changed => ?_, fun safe l' other => ?_, ?_⟩
    · rw [if_neg changed]
      obtain ⟨cfg, manual, sources, drive, cause, pin⟩ :=
        endEvent_derives l (setLineRecord l { v with manual := level } s)
      simp only [setLineRecord, PerLine.get_set_self] at cfg manual sources drive cause pin
      exact ⟨cfg, manual, sources, pin, drive, cause⟩
    · split
      · rfl
      · exact endEventWith_others other (by simp) safe
    · split
      · rfl
      · exact Eq.trans (endEvent_ended (setLineRecord l _ s)) rfl

/-! ## SET_ROUTING (R129 to R132, R135 to R138) -/

theorem outputValid_iff (cfg : LineConfig) :
    outputValid cfg = true ↔ ¬(cfg.output = .openDrain ∧ cfg.polarity = .activeHigh) := by
  rw [outputValid, Bool.not_eq_true', Bool.and_eq_false_iff, beq_eq_false_iff_ne, beq_eq_false_iff_ne, not_and_or]

/-- A configured line as the end of the event leaves it: derived, and compared where its output type, its polarity or
its drive changed (R136, R137). -/
theorem configureLine_record {l : LineId} {cfg : LineConfig} {s : State} (changed : cfg ≠ (s.lines.get l).cfg) :
    let v := s.lines.get l
    let view := viewOf s cfg.routing
    let drive := driveOf view v.manual
    let sensed := interpret cfg.polarity v.pinHigh
    let fresh := drive ≠ v.drive ∨ cfg.output ≠ v.cfg.output ∨ cfg.polarity ≠ v.cfg.polarity
    let bad := mismatch cfg.output drive sensed
    (configureLine l cfg s).lines.get l =
      { cfg := cfg, manual := v.manual, view := view, drive := drive, cause := causeOf view v.manual
        pinOut := pinOutOf cfg.output cfg.polarity drive, pinHigh := v.pinHigh, sensed := sensed
        external := if fresh then externalOf cfg.output drive sensed else v.external
        stuck := if fresh then v.stuck && bad else v.stuck
        window := if ¬fresh then v.window else if bad = false then none
          else if v.stuck then v.window else some (Timer.start cfg.window) } := by
  intro v view drive sensed fresh bad
  unfold configureLine
  dsimp only
  rw [if_neg changed]
  let fresher := if cfg.output ≠ v.cfg.output ∨ cfg.polarity ≠ v.cfg.polarity then some l else none
  let next := ThrottleLine.derived { v with cfg := cfg, sensed := sensed } view
  have record : (endEventWith fresher (setLineRecord l { v with cfg := cfg, sensed := sensed } s)).lines.get l =
      if next.drive != v.drive || fresher == some l then next.comparedAfter .driven else next := by
    have left := endEventWith_record fresher l (setLineRecord l { v with cfg := cfg, sensed := sensed } s)
    simp only [setLineRecord, PerLine.get_set_self] at left
    exact left
  have compares : (next.drive != v.drive || fresher == some l) = true ↔ fresh := by
    rw [Bool.or_eq_true, bne_iff_ne]
    refine or_congr Iff.rfl ?_
    by_cases other : cfg.output ≠ v.cfg.output ∨ cfg.polarity ≠ v.cfg.polarity
    · simp only [fresher, if_pos other, beq_self_eq_true, true_iff]
      exact other
    · simp only [fresher, if_neg other]
      exact iff_of_false (by simp) other
  refine record.trans ?_
  by_cases freshly : fresh
  · rw [if_pos (compares.mpr freshly)]
    simp only [freshly, if_true, not_true_eq_false, if_false]
    have differs : mismatch next.cfg.output next.drive next.sensed = bad := rfl
    simp only [ThrottleLine.comparedAfter, differs]
    cases bad <;> rfl
  · rw [if_neg (mt compares.mp freshly)]
    simp only [freshly, if_false, not_false_eq_true, if_true]
    rfl

/-- Settles O41: the owner's validation and clamping, and the record as the end of the event leaves it. -/
theorem setRoutingConfiguresTheLine : Obligations.SetRoutingConfiguresTheLine := by
  intro body r l s running mode shape named v x window cfg view drive sensed fresh bad
  have taken : ∀ {t reply}, ownSetRouting r s = (t, reply) → x = .next (answer .platform .setRouting reply t) :=
    fun own => exec_served (kind := .setRouting) running (admitted_safe rfl mode) (served_eq_some.mpr ⟨r, shape, own⟩)
  have clamped : clampNat 1 50 r.cfg.window = window := clampNat_eq _ _ _ (by decide)
  have own : ownSetRouting r s =
      if outputValid cfg then (configureLine l cfg s, .taken (window != r.cfg.window) (leBytes 1 window))
      else (s, .bare .invalid) := by
    rw [ownSetRouting, named, LineId.ofNumber_number]
    simp only [clamped]
    rfl
  refine ⟨fun invalid => ?_, fun valid => ?_⟩
  · rw [if_neg (fun h => (outputValid_iff cfg).mp h invalid)] at own
    exact taken own
  rw [if_pos ((outputValid_iff cfg).mpr valid)] at own
  have answered := (taken own).trans (by rw [answer_taken])
  refine ⟨configureLine l cfg s, answered, fun same => if_pos same, configureLine_record, fun changed moved => ?_,
    fun safe l' other => ?_, ?_⟩
  · obtain ⟨-, -, -, -, -, drives, -⟩ := changesRaiseTheirNotices _ _ _ answered (by rintro ⟨_, _, _, ⟨⟩⟩)
    refine drives l ?_
    have record := configureLine_record changed
    change ((configureLine l cfg s).lines.get l).drive ≠ v.drive
    rw [record]
    exact moved
  · unfold configureLine
    dsimp only
    split
    · rfl
    · refine endEventWith_others other ?_ safe
      split
      · exact fun h => other (Option.some.inj h).symm
      · simp
  · unfold configureLine
    dsimp only
    split
    · rfl
    · exact Eq.trans (endEventWith_ended _ (setLineRecord l _ s)) rfl

end Sys2Proof.Machine

/-! # What stays of a fault record to the end of its event (R62, R106, R139, R144 to R146) -/

namespace Sys2Proof.Machine

open Sys2Proof

/-! ## Records that an event leaves -/

/-- The records of these pairs stand in t where they stood in s, as they were. -/
def Untouched (p : FaultKind → Nat → Prop) (s t : State) : Prop :=
  ∀ (k : Nat) (r : FaultRecord), s.faults[k]? = some r → p r.kind r.subject → t.faults[k]? = some r

variable {p : FaultKind → Nat → Prop} {s t u : State}

theorem Untouched.refl (p : FaultKind → Nat → Prop) (s : State) : Untouched p s s := fun _ _ inside _ => inside

theorem Untouched.of_faults (h : t.faults = s.faults) : Untouched p s t := fun _ _ inside _ => h ▸ inside

theorem Untouched.trans (h : Untouched p s t) (h' : Untouched p t u) : Untouched p s u := fun k r inside own =>
  h' k r (h k r inside own) own

theorem Untouched.inAnyOrder {todo : List (State → State)} (each : ∀ f ∈ todo, ∀ u, Untouched p u (f u)) (s : State) :
    Untouched p s (inAnyOrder todo s) :=
  inAnyOrder_keeps (Untouched p s) (fun _ _ h => h) todo (fun f hf _ h => h.trans (each f hf _)) s (.refl p s)

theorem Offered.untouched (h : Offered s t) : Untouched p s t := .of_faults (h.same State.faults fun _ => rfl)

theorem Limited.untouched (h : Limited s t) : Untouched p s t := .of_faults (h.same State.faults fun _ => rfl)

/-- An occurrence leaves the records of other pairs. -/
theorem occur_untouched {kind : FaultKind} {n : Nat} (free : ¬p kind n) (v : Option Int) (s : State) :
    Untouched p s (occur kind n v s) := by
  intro k r inside own
  cases held : logHolds s.faults kind n with
  | false =>
    rw [occur_first _ _ _ _ held]
    exact (List.getElem?_append_left (List.getElem?_eq_some_iff.mp inside).1).trans inside
  | true =>
    rw [occur_again _ _ _ _ held, List.getElem?_map, inside, Option.map_some, if_neg]
    intro same
    obtain ⟨rfl, rfl⟩ := (isOf_iff r kind n).mp same
    exact free own

/-- A condition's end leaves the records of other pairs. -/
theorem endCondition_untouched {kind : FaultKind} {n : Nat} (free : ¬p kind n) (s : State) :
    Untouched p s (endCondition kind n s) := by
  intro k r inside own
  rw [endCondition, List.getElem?_map, inside, Option.map_some, if_neg]
  intro same
  obtain ⟨rfl, rfl⟩ := (isOf_iff r kind n).mp same
  exact free own

theorem Untouched.presentIn (h : Untouched p s t) {kind : FaultKind} {n : Nat} (own : p kind n)
    (present : presentIn s.faults kind n) : presentIn t.faults kind n := by
  obtain ⟨r, inside, rfl, rfl, flag⟩ := present
  obtain ⟨k, place⟩ := List.getElem?_of_mem inside
  exact ⟨r, List.mem_of_getElem? (h k r place own), rfl, rfl, flag⟩

/-! ### Column switches reach zone trips only -/

section

variable (trips : ∀ n, ¬p .zoneTrip n)

include trips

theorem tripCheck_untouched (z : ZoneId) (s : State) : Untouched p s (tripCheck z s) := by
  unfold tripCheck
  dsimp only
  split
  · exact .refl p s
  · split
    · split
      · exact occur_untouched (s := setZoneRecord z _ s) (trips _) _
      · exact .refl p s
    · split
      · exact endCondition_untouched (trips _) (setZoneRecord z _ s)
      · exact .refl p s
    · exact .refl p s
    · exact .refl p s

omit trips in
theorem ladderUp_untouched (z : ZoneId) (s : State) : Untouched p s (ladderUp z s) := by
  unfold ladderUp
  dsimp only
  split
  · exact .refl p s
  · split <;> exact .of_faults rfl

theorem announceSwitch_untouched (s : State) : Untouched p s (announceSwitch s) := by
  have zone : ∀ z s, Untouched p s (zoneSwitch z s) := by
    intro z s
    unfold zoneSwitch
    split
    · exact (tripCheck_untouched trips z s).trans (ladderUp_untouched z _)
    · exact .refl p s
  have zones : ∀ s, Untouched p s (zonesSwitch s) := by
    intro s
    refine Untouched.trans (Untouched.inAnyOrder ?_ s) (recomputeThermal_limited _).untouched
    simp only [List.mem_cons, List.not_mem_nil, or_false]
    rintro f (rfl | rfl | rfl | rfl) u <;> exact zone _ u
  refine Untouched.inAnyOrder ?_ s
  simp only [List.mem_cons, List.not_mem_nil, or_false]
  rintro f (rfl | rfl | rfl | rfl | rfl) u
  · exact zones u
  · exact (accountSwitch_limited _ u).untouched
  · exact (accountSwitch_limited _ u).untouched
  · exact (accountSwitch_limited _ u).untouched
  · exact (recomputeShares_offered u).untouched

theorem deriveColumn_untouched (s : State) : Untouched p s (deriveColumn s) := by
  unfold deriveColumn
  dsimp only
  split
  · exact .refl p s
  · exact Untouched.trans (t := { s with column := columnOf s.mode s.effective }) (.of_faults rfl)
      (announceSwitch_untouched trips _)

theorem leaveActive_untouched (s : State) : Untouched p s (leaveActive s) := by
  rw [leaveActive_eq]
  refine Untouched.trans (t := raise .mode { s with mode := .safe }) (.of_faults rfl)
    (Untouched.inAnyOrder (fun f hf u => ?_) _)
  rcases mem_leaveConsequences hf with rfl | ⟨d, rfl⟩ | rfl
  · exact deriveColumn_untouched trips u
  · exact Untouched.trans (t := { u with caps := u.caps.set d { u.caps.get d with capS := none } }) (.of_faults rfl)
      (clearCapS_offered d u).untouched
  · unfold dropSystemHint deriveEffective
    split
    · dsimp only
      split
      · exact .of_faults rfl
      · exact Untouched.trans (t := raise .posture { dropHint u with effective := _ }) (.of_faults rfl)
          (deriveColumn_untouched trips _)
    · exact .refl p u

/-- What follows a FATAL occurrence reaches zone trips only. -/
theorem occurFatal_leaves (kind : FaultKind) (n : Nat) (v : Option Int) (s : State) :
    Untouched p (occur kind n v s) (occurFatal kind n v s) := by
  unfold occurFatal
  dsimp only
  split
  · exact .refl p _
  · exact leaveActive_untouched trips _

theorem occurFatal_untouched {kind : FaultKind} {n : Nat} (free : ¬p kind n) (v : Option Int) (s : State) :
    Untouched p s (occurFatal kind n v s) :=
  (occur_untouched free v s).trans (occurFatal_leaves trips kind n v s)

end

/-- The end of an event reaches records of stuck lines only. -/
theorem endEventWith_untouched (stuck : ∀ n, ¬p .lineStuck n) (fresh : Option LineId) (s : State) :
    Untouched p s (endEventWith fresh s) := by
  have compared : ∀ l event u, Untouched p u (compareLine l event u) := by
    intro l event u
    rw [compareLine_eq]
    split
    · exact endCondition_untouched (stuck _) u
    · exact .of_faults rfl
  have derived : ∀ b l u, Untouched p u (deriveLine b l u) := by
    intro b l u
    unfold deriveLine
    dsimp only
    split
    · exact Untouched.trans (t := setLineRecord l _ u) (.of_faults rfl) (compared _ _ _)
    · exact .of_faults rfl
  have all := (((derived (fresh == some .thr0) .thr0 s).trans (derived (fresh == some .thr1) .thr1 _)).trans
    (derived (fresh == some .thr2) .thr2 _)).trans (derived (fresh == some .thr3) .thr3 _)
  unfold endEventWith
  dsimp only
  split
  · exact all
  · exact all.trans (.of_faults rfl)

/-! ## First records -/

/-- The record that an occurrence leaves in place of the pair's, or behind the log (R144, R145). -/
theorem occur_record (kind : FaultKind) (n : Nat) (v : Option Int) (s : State) :
    (∀ (k : Nat) (r : FaultRecord), s.faults[k]? = some r → r.kind = kind → r.subject = n →
        (occur kind n v s).faults[k]? = some (r.recur s.uptime)) ∧
      ((∀ r ∈ s.faults, ¬(r.kind = kind ∧ r.subject = n)) →
        (occur kind n v s).faults[s.faults.length]? = some (newRecord kind n v s.uptime)) := by
  constructor
  · intro k r inside hkind subject
    have held : logHolds s.faults kind n = true :=
      (logHolds_iff _ _ _).mpr ⟨r, List.mem_of_getElem? inside, hkind, subject⟩
    rw [occur_again _ _ _ _ held, List.getElem?_map, inside, Option.map_some,
      if_pos ((isOf_iff r kind n).mpr ⟨hkind, subject⟩)]
  · intro none
    have first : logHolds s.faults kind n = false := by
      rw [← Bool.not_eq_true, logHolds_iff]
      rintro ⟨r, inside, own⟩
      exact none r inside own
    rw [occur_first _ _ _ _ first]
    exact List.getElem?_concat_length

/-- A first record of a condition stays to the end of its event (R144). -/
theorem FirstRecord.of_occur {kind : FaultKind} {n : Nat} {v : Option Int} (condition : kind.isCondition = true)
    (start : u.faults = s.faults ∧ u.uptime = s.uptime) (stays : Untouched (fun k _ => k = kind) (occur kind n v u) t) :
    FirstRecord kind n kind.severity v s t := by
  intro none
  obtain ⟨faults, uptime⟩ := start
  have first := (occur_record kind n v u).2 fun r inside own => none r (faults ▸ inside) (by rw [own.1, own.2])
  have left := stays _ _ first rfl
  have record := List.mem_of_getElem? left
  rw [newRecord, condition, if_pos rfl, uptime] at record
  exact record

/-! ## TRIP_TIMER_EXPIRY (R106) -/

/-- What falls to SAFE reads only the mode, the column, caps, hint and postures in front of it. -/
theorem FallsSafe.of_same (h : FallsSafe s t)
    (same : (u.mode, u.column, u.caps, u.hint, u.effective, u.committed) =
      (s.mode, s.column, s.caps, s.hint, s.effective, s.committed)) : FallsSafe u t := by
  simp only [Prod.mk.injEq] at same
  obtain ⟨mode, column, caps, hint, effective, committed⟩ := same
  rw [FallsSafe, mode, column, caps, hint, effective, committed]
  exact h

/-- A FATAL occurrence leaves ACTIVE, and in SAFE nothing has to fall (R153). -/
theorem occurFatal_fallsSafe (kind : FaultKind) (n : Nat) (v : Option Int) (s : State) :
    FallsSafe s (occurFatal kind n v s) := by
  have same := (occur_logged kind n v s).same
    (fun u => (u.mode, u.column, u.caps, u.hint, u.effective, u.committed)) fun _ => rfl
  cases mode : s.mode with
  | safe =>
    have stays : (occur kind n v s).mode = .safe := ((occur_logged kind n v s).same State.mode fun _ => rfl).trans mode
    rw [occurFatal_safe _ _ _ _ mode]
    exact (fallsSafe_refl stays).of_same same.symm
  | active =>
    have stays : (occur kind n v s).mode = .active :=
      ((occur_logged kind n v s).same State.mode fun _ => rfl).trans mode
    rw [occurFatal_active _ _ _ _ mode]
    exact (leaveActive_fallsSafe stays).of_same same.symm

/-- Settles O37: the FATAL occurrence of SUPPLY_TRIP, and the lines derived from the tripped watch. -/
theorem tripTimerExpiryTrips : Obligations.TripTimerExpiryTrips := by
  intro w s running timing due
  have happens : exec .tripTimerExpiry s = .next (supplyTrips s) := by
    simp only [exec, execTripTimerExpiry, outsideReset_running _ s running, timing, await_of_due w s due]
  have event := fun {α : Type} (f : State → α) blind => (supplyTrips_evented s).same f blind
  let tripped : State := { s with watch := { s.watch with state := .tripped } }
  let fallen := occurFatal .supplyTrip 0 (some s.watch.lastSys) tripped
  have left : Untouched (fun k _ => k = .supplyTrip) (occur .supplyTrip 0 (some s.watch.lastSys) tripped)
      (supplyTrips s) :=
    (occurFatal_leaves (fun _ => by decide) _ _ _ tripped).trans
      (endEventWith_untouched (fun _ => by decide) none fallen)
  have watch : fallen.watch.state = .tripped := by
    have := (occurFatal_fallen .supplyTrip 0 (some s.watch.lastSys) tripped).same State.watch fun _ => rfl
    rw [this]
  refine ⟨supplyTrips s, happens, event State.watch fun _ => rfl, ?_, fun none => ?_, fun l => ?_, ?_, fun mode => ?_,
    event (fun u => { u with watch := s.watch }.withoutEvent) fun _ => rfl⟩
  · exact left.presentIn rfl ((presentIn_occur _ _ _ tripped _ _).mpr (.inl ⟨rfl, rfl, rfl⟩))
  · have first : FirstRecord .supplyTrip 0 .fatal (some s.watch.lastSys) s (supplyTrips s) :=
      FirstRecord.of_occur (u := tripped) rfl ⟨rfl, rfl⟩ left
    exact ⟨_, first fun r inside same => none r inside (Prod.mk.inj same).1, rfl⟩
  · obtain ⟨-, -, -, drive, cause, -⟩ := endEvent_derives l fallen
    have source : ∀ routing, (viewOf fallen routing).supplyTrip = true := fun routing => by
      rw [viewOf, watch]
      rfl
    refine ⟨drive.trans ?_, cause.trans ?_⟩
    · rw [driveOf, SourceView.any, source]
      rfl
    · rw [causeOf, source]
      rfl
  · exact ((occurFatal_fallsSafe .supplyTrip 0 (some s.watch.lastSys) tripped).of_same rfl).ended
  · have logged : supplyTrips s = endEvent (occur .supplyTrip 0 (some s.watch.lastSys) tripped) :=
      congrArg endEvent (occurFatal_safe _ _ _ tripped mode)
    rw [logged]
    exact ((endEvent_ended _).same State.supply fun _ => rfl).trans
      ((occur_logged _ _ _ tripped).same State.supply fun _ => rfl)

/-! ## READBACK_WINDOW_EXPIRY (R137 to R139) -/

/-- A LINE_STUCK record at the derivation of its line: not present where the comparison ends the condition. -/
theorem deriveLine_record {fresh : Bool} {l : LineId} {s : State} {k : Nat} {r : FaultRecord}
    (inside : s.faults[k]? = some r) (kind : r.kind = .lineStuck) (subject : r.subject = l.number) :
    (deriveLine fresh l s).faults[k]? = some
      (if (s.lines.get l).stuck && !((deriveLine fresh l s).lines.get l).stuck then { r with present := some false }
      else r) := by
  have record := deriveLine_line fresh l s
  unfold deriveLine at record ⊢
  dsimp only at record ⊢
  rw [record]
  split
  · rw [compareLine_eq]
    simp only [setLineRecord, PerLine.get_set_self, ThrottleLine.comparedAfter, ThrottleLine.derived]
    have same : ∀ lines, (endCondition .lineStuck l.number { s with lines := lines }).faults =
        (endCondition .lineStuck l.number s).faults := fun _ => rfl
    have ended : (endCondition .lineStuck l.number s).faults[k]? = some { r with present := some false } := by
      rw [endCondition, List.getElem?_map, inside, Option.map_some, if_pos ((isOf_iff r _ _).mpr ⟨kind, subject⟩)]
    have table : ∀ stuck differs : Bool,
        (if (stuck && !differs) = true then (endCondition .lineStuck l.number s).faults else s.faults)[k]? =
          some (if (stuck && !(stuck && differs)) = true then { r with present := some false } else r) := by
      intro stuck differs
      cases stuck <;> cases differs
      · exact inside
      · exact inside
      · exact ended
      · exact inside
    rw [same]
    exact table _ _
  · rw [if_neg (by simp [ThrottleLine.derived])]
    exact inside

theorem deriveLine_untouched {fresh : Bool} {l : LineId} (own : ¬p .lineStuck l.number) (s : State) :
    Untouched p s (deriveLine fresh l s) := by
  unfold deriveLine
  dsimp only
  split
  · have compared : ∀ u : State, Untouched p u (compareLine l .driven u) := by
      intro u
      rw [compareLine_eq]
      split
      · exact endCondition_untouched own u
      · exact .of_faults rfl
    exact Untouched.trans (t := setLineRecord l _ s) (.of_faults rfl) (compared _)
  · exact .of_faults rfl

/-- A LINE_STUCK record at the end of an event: not present where the comparison of its line ends the condition. -/
theorem endEvent_record {l : LineId} {s : State} {k : Nat} {r : FaultRecord}
    (inside : s.faults[k]? = some r) (kind : r.kind = .lineStuck) (subject : r.subject = l.number) :
    (endEvent s).faults[k]? = some
      (if (s.lines.get l).stuck && !((endEvent s).lines.get l).stuck then { r with present := some false }
      else r) := by
  obtain ⟨x, record⟩ : ∃ x, x =
    if (s.lines.get l).stuck && !((endEvent s).lines.get l).stuck then { r with present := some false } else r := ⟨_, rfl⟩
  have pair : x.kind = .lineStuck ∧ x.subject = l.number := by
    rw [record]
    split <;> exact ⟨kind, subject⟩
  have others : ∀ l' (u : State) (y : FaultRecord), l ≠ l' → y.kind = .lineStuck ∧ y.subject = l.number →
      u.faults[k]? = some y → (deriveLine false l' u).faults[k]? = some y :=
    fun l' u y other pair inside => deriveLine_untouched (p := fun k m => k = .lineStuck ∧ m = l.number)
      (fun same => other (LineId.number_injective same.2.symm)) u k y inside pair
  have sources : ∀ l' (u : State) routing, viewOf (deriveLine false l' u) routing = viewOf u routing :=
    fun l' u routing => (deriveLine_ended false l' u).same (fun v => viewOf v routing) fun _ => rfl
  have own : ∀ u : State, u.lines.get l = s.lines.get l → (∀ routing, viewOf u routing = viewOf s routing) →
      u.faults[k]? = some r → (deriveLine false l u).faults[k]? = some x := by
    intro u line sources inside
    rw [deriveLine_record inside kind subject, deriveLine_congr false l s u line sources, line, record, endEvent,
      endEventWith_line]
    rfl
  have derived : (endEvent s).faults =
      (deriveLine false .thr3 (deriveLine false .thr2 (deriveLine false .thr1 (deriveLine false .thr0 s)))).faults := by
    unfold endEvent endEventWith
    dsimp only
    split <;> rfl
  rw [← record, derived]
  cases l with
  | thr0 =>
    exact others .thr3 _ x (by decide) pair (others .thr2 _ x (by decide) pair (others .thr1 _ x (by decide) pair
      (own s rfl (fun _ => rfl) inside)))
  | thr1 =>
    refine others .thr3 _ x (by decide) pair (others .thr2 _ x (by decide) pair (own _ ?_ (fun _ => sources _ _ _) ?_))
    · exact deriveLine_others _ _ _ _ (by decide)
    · exact others .thr0 _ r (by decide) ⟨kind, subject⟩ inside
  | thr2 =>
    refine others .thr3 _ x (by decide) pair (own _ ?_ (fun _ => (sources _ _ _).trans (sources _ _ _)) ?_)
    · rw [deriveLine_others _ _ _ _ (by decide), deriveLine_others _ _ _ _ (by decide)]
    · exact others .thr1 _ r (by decide) ⟨kind, subject⟩ (others .thr0 _ r (by decide) ⟨kind, subject⟩ inside)
  | thr3 =>
    refine own _ ?_ (fun _ => (sources _ _ _).trans ((sources _ _ _).trans (sources _ _ _))) ?_
    · rw [deriveLine_others _ _ _ _ (by decide), deriveLine_others _ _ _ _ (by decide),
        deriveLine_others _ _ _ _ (by decide)]
    · exact others .thr2 _ r (by decide) ⟨kind, subject⟩ (others .thr1 _ r (by decide) ⟨kind, subject⟩
        (others .thr0 _ r (by decide) ⟨kind, subject⟩ inside))

/-- A stuck line at the end of an event: it stays stuck but where its drive changes to a match (R139). -/
theorem endEvent_stuck {l : LineId} {s : State} (stuck : (s.lines.get l).stuck = true)
    (idle : (s.lines.get l).window = none) :
    let v := (endEvent s).lines.get l
    v.window = none ∧
      v.stuck = (v.drive == (s.lines.get l).drive || mismatch v.cfg.output v.drive v.sensed) := by
  intro v
  have record : v = _ := endEventWith_record none l s
  rw [record]
  split
  · rename_i compares
    have moved : ((s.lines.get l).derived (viewOf s (s.lines.get l).cfg.routing)).drive ≠ (s.lines.get l).drive := by
      simpa using compares
    refine ⟨?_, ?_⟩
    · simp [ThrottleLine.comparedAfter, ThrottleLine.derived, stuck, idle]
    · have differs := beq_eq_false_iff_ne.mpr moved
      simp only [ThrottleLine.comparedAfter, ThrottleLine.derived, stuck] at differs ⊢
      rw [differs, Bool.false_or, Bool.true_and]
  · rename_i same
    have stays : ((s.lines.get l).derived (viewOf s (s.lines.get l).cfg.routing)).drive = (s.lines.get l).drive := by
      simpa using same
    refine ⟨idle, ?_⟩
    rw [stays, beq_self_eq_true, Bool.true_or]
    exact stuck

/-- Settles O39: the FATAL occurrence of LINE_STUCK, and what the end of the event makes of the line and its record. -/
theorem windowExpiryMakesTheLineStuck : Obligations.WindowExpiryMakesTheLineStuck := by
  intro l w s running window due
  have happens : exec (.readbackWindowExpiry l) s = .next (lineSticks l s) := by
    simp only [exec, execReadbackWindowExpiry, outsideReset_running _ s running, window, await_of_due w s due]
  let stuck : State := setLineRecord l { s.lines.get l with stuck := true, window := none } s
  let fallen := occurFatal .lineStuck l.number none stuck
  have line : fallen.lines.get l = { s.lines.get l with stuck := true, window := none } := by
    have := (occurFatal_fallen .lineStuck l.number none stuck).same (fun u => u.lines.get l) fun _ => rfl
    rw [this]
    exact PerLine.get_set_self _ _ _
  obtain ⟨idle, sticks⟩ := endEvent_stuck (l := l) (s := fallen) (by rw [line]) (by rw [line])
  have mayEnd : (fallen.lines.get l).stuck = true := by rw [line]
  have sameDrive : (fallen.lines.get l).drive = (s.lines.get l).drive := by rw [line]
  rw [sameDrive] at sticks
  have kept : ∀ (k : Nat) (r : FaultRecord), (occur .lineStuck l.number none stuck).faults[k]? = some r →
      r.kind = .lineStuck → r.subject = l.number → r.present = some true →
      (lineSticks l s).faults[k]? = some { r with present := some ((lineSticks l s).lines.get l).stuck } := by
    intro k r inside kind subject present
    have left := occurFatal_leaves (p := fun k _ => k = .lineStuck) (fun _ => by decide) .lineStuck l.number none stuck
      k r inside kind
    have record : (lineSticks l s).faults[k]? = _ := endEvent_record left kind subject
    rw [record, mayEnd, Bool.true_and]
    change some (if (!((lineSticks l s).lines.get l).stuck) = true then _ else _) = _
    cases ((lineSticks l s).lines.get l).stuck with
    | false => rfl
    | true => rw [← present]; rfl
  have sure : ((lineSticks l s).lines.get l).stuck = true → presentIn (lineSticks l s).faults .lineStuck l.number := by
    intro sure
    obtain ⟨r, inside, kind, subject, present⟩ :=
      (presentIn_occur .lineStuck l.number none stuck _ _).mpr (.inl ⟨rfl, rfl, rfl⟩)
    obtain ⟨k, place⟩ := List.getElem?_of_mem inside
    exact ⟨_, List.mem_of_getElem? (kept k r place kind subject present), kind, subject, congrArg some sure⟩
  have first : (∀ r ∈ s.faults, ¬(r.kind = .lineStuck ∧ r.subject = l.number)) →
      (lineSticks l s).faults[s.faults.length]? = some
        { newRecord .lineStuck l.number none s.uptime with
          present := some ((lineSticks l s).lines.get l).stuck } := fun none' =>
    kept _ _ ((occur_record .lineStuck l.number none stuck).2 none') rfl rfl rfl
  have again : ∀ (k : Nat) (r : FaultRecord), s.faults[k]? = some r → r.kind = .lineStuck → r.subject = l.number →
      (lineSticks l s).faults[k]? = some
        { r.recur s.uptime with present := some ((lineSticks l s).lines.get l).stuck } := fun k r inside kind subject =>
    kept _ _ ((occur_record .lineStuck l.number none stuck).1 k r inside kind subject) kind subject
      (if_pos (congrArg FaultKind.isCondition kind))
  refine ⟨lineSticks l s, happens, ⟨idle, fun holds => ?_, fun moved fits => ?_, sure, again, fun new => ⟨first new, ?_⟩⟩,
    ((occurFatal_fallsSafe .lineStuck l.number none stuck).of_same rfl).ended,
    (lineSticks_evented l s).same State.withoutEvent fun _ => rfl, fun mode safe => ?_⟩
  · refine sticks.trans ?_
    rw [Bool.or_eq_true, beq_iff_eq]
    exact holds
  · refine sticks.trans ?_
    rw [Bool.or_eq_false_iff]
    exact ⟨beq_eq_false_iff_ne.mpr moved, fits⟩
  · obtain ⟨-, -, -, -, -, -, raised, -⟩ := changesRaiseTheirNotices _ s _ happens (by rintro ⟨_, _, _, ⟨⟩⟩)
    exact raised _ (List.mem_of_getElem? (first new)) fun r inside same =>
      new r inside ⟨(Prod.mk.inj same).1, (Prod.mk.inj same).2⟩
  · let logged := occur .lineStuck l.number none stuck
    have same := fun {α : Type} (f : State → α) blind => (occur_logged .lineStuck l.number none stuck).same f blind
    have lines : logged.lines = s.lines.set l { s.lines.get l with stuck := true, window := none } :=
      same State.lines fun _ => rfl
    have view : ∀ routing, viewOf logged routing = viewOf s routing := fun routing =>
      same (fun u => viewOf u routing) fun _ => rfl
    have follows : ∀ l', (logged.lines.get l').Follows (viewOf logged (logged.lines.get l').cfg.routing) := by
      intro l'
      rw [lines, view]
      by_cases own : l' = l
      · subst own
        rw [PerLine.get_set_self]
        exact safe.follows l'
      · rw [PerLine.get_set_of_ne _ _ _ _ own]
        exact safe.follows l'
    have whole : lineSticks l s = logged :=
      (congrArg endEvent (occurFatal_safe _ _ _ stuck mode)).trans (endEvent_of_follows follows)
    rw [whole]
    refine ⟨(presentIn_occur .lineStuck l.number none stuck _ _).mpr (.inl ⟨rfl, rfl, rfl⟩), lines, ?_⟩
    rw [lines]
    exact same State.withoutLog fun _ => rfl

end Sys2Proof.Machine

/-! # Caps and the supply arbiter's requests (R93 to R100, R111, R112) -/

namespace Sys2Proof.Machine

open Sys2Proof

/-! ## Requests that feed the arbiter -/

/-- What neither offers nor the end of an event write stays under both. -/
theorem Offered.same_ended {α : Type} (f : State → α) {s t : State} (h : Offered s t)
    (offers : ∀ u : State, f u.withoutOffers = f u) (ends : ∀ u : State, f u.withoutEnd = f u) :
    f (endEvent t) = f s :=
  ((endEvent_ended t).same f ends).trans (h.same f offers)

/-- A recomputation from the inputs of the last one changes nothing. -/
theorem recomputeShares_of_done {s : State} (done : s.Done .allocation) : recomputeShares s = s := by
  have same : { s with supply := allocationOf s } = s := by
    rw [← show s.supply = allocationOf s from done]
  rw [recomputeShares, same]
  simp only [offerShareIfChanged, if_true]

/-! ## SET_CAP (R111, R112) -/

/-- A cap that is not the held one is stored and offered to both (R112). -/
theorem storeCap_changed {d : DomainId} {port : Port} {cap : Option Nat} {s : State}
    (changed : (s.caps.get d).place port cap ≠ s.caps.get d) :
    storeCap d port cap s = endEvent (inAnyOrder [offerCapsToResolver d, recomputeShares]
      { s with caps := s.caps.set d ((s.caps.get d).place port cap) }) := if_neg changed

/-- What does not look at caps, at what offers write or at the lines stays under a stored cap. -/
theorem storeCap_same {α : Type} (f : State → α) (d : DomainId) (port : Port) (cap : Option Nat) (s : State)
    (caps : ∀ (u : State) c, f { u with caps := c } = f u) (offers : ∀ u : State, f u.withoutOffers = f u)
    (ends : ∀ u : State, f u.withoutEnd = f u) : f (storeCap d port cap s) = f s := by
  by_cases same : (s.caps.get d).place port cap = s.caps.get d
  · rw [storeCap, if_pos same]
  · rw [storeCap_changed same]
    exact ((offerCaps_offered d _).same_ended f offers ends).trans (caps s _)

theorem storeCap_caps (d : DomainId) (port : Port) (cap : Option Nat) (s : State) :
    (storeCap d port cap s).caps = s.caps.set d ((s.caps.get d).place port cap) := by
  by_cases same : (s.caps.get d).place port cap = s.caps.get d
  · rw [storeCap, if_pos same, same, PerDomain.set_get_self]
  · rw [storeCap_changed same]
    exact (offerCaps_offered d _).same_ended State.caps (fun _ => rfl) fun _ => rfl

/-- Settles O33: the clamped cap stored, and the offers that a change makes. -/
theorem setCapStoresThePortsCap : Obligations.SetCapStoresThePortsCap := by
  intro port body d cap s running mode shape taken caps
  have admitted : Admitted .setCap port s := by
    cases port with
    | platform => exact admitted_platform rfl
    | system => exact ⟨rfl, by rw [modeAllows, mode rfl]; rfl⟩
  have own : ownSetCap port ⟨d.number, cap⟩ s = (storeCap d port taken s, .taken (taken != cap) (leOption 4 taken)) := by
    rw [ownSetCap, DomainId.ofNumber_number]
    cases port <;> rfl
  have stored : (s.caps.get d).place port taken = caps := by cases port <;> rfl
  have happens := exec_served (kind := .setCap) running admitted (served_eq_some.mpr ⟨_, shape, own⟩)
  have fields : leOption 4 taken = leBytes 4 (taken.getD 4294967295) := by cases taken <;> rfl
  rw [answer_taken, fields] at happens
  refine ⟨storeCap d port taken s, happens, (storeCap_caps d port taken s).trans (by rw [stored]), fun same => ?_,
    fun changed => ?_, ?_, ?_, ?_⟩
  · exact if_pos (stored.trans same)
  · have storesIt : storeCap d port taken s = _ := storeCap_changed (stored ▸ changed)
    have done : ∀ {x}, State.Done { s with caps := s.caps.set d caps } x ∨ x = .allocation ∨ x = .copy .caps d →
        (storeCap d port taken s).Done x := fun h => by
      rw [storesIt, stored]
      exact (offerCaps_done d h).endEvent
    have resolved : (storeCap d port taken s).Done (.grant d) := by
      rw [storesIt]
      refine (State.Done.inAnyOrder ?_ (.inr ⟨offerCapsToResolver d, by simp, fun u => resolve_done d (.inr rfl)⟩)).endEvent
      simp only [List.mem_cons, List.not_mem_nil, or_false]
      rintro f (rfl | rfl) u done
      · exact offerCapsToResolver_done d (.inl done)
      · exact recomputeShares_done (.inl done)
    obtain ⟨capP, capS⟩ : (storeCap d port taken s).Done (.copy .caps d) := done (.inr (.inr rfl))
    have domains : (storeCap d port taken s).domains = s.domains :=
      storeCap_same State.domains d port taken s (fun _ _ => rfl) (fun _ => rfl) fun _ => rfl
    rw [storeCap_caps, stored, PerDomain.get_set_self] at capP capS
    refine ⟨done (.inr (.inl rfl)), Prod.ext capP capS, ?_⟩
    rw [← domains]
    exact resolved
  · exact storeCap_same State.accounts d port taken s (fun _ _ => rfl) (fun _ => rfl) fun _ => rfl
  · exact storeCap_same State.thermal d port taken s (fun _ _ => rfl) (fun _ => rfl) fun _ => rfl
  · exact storeCap_same (fun u => { u with caps := s.caps }.withoutChain) d port taken s (fun _ _ => rfl) (fun _ => rfl)
      fun _ => rfl

/-! ## SUPPLY_REPORT (R93, R96 to R101) -/

theorem capped_eq (power : Nat) (cap : Option Nat) : capped power cap = min power (cap.getD power) := by
  cases cap with
  | none => exact (Nat.min_self power).symm
  | some c => rfl

theorem sourceOf_eq (acin : LineState) : sourceOf acin = if acin = .asserted then .adapter else .battery := by
  cases acin <;> rfl

/-- The available power of a report received (R97). -/
theorem availablePower_received (acin : LineState) (rating derate battery : Nat) (c : SupplyConfig) :
    availablePower (sourceOf acin) ⟨rating, derate, some battery, true⟩ c =
      if acin = .asserted then (if rating = 0 then c.unknownRating else rating) * derate / 100 else battery := by
  cases acin <;> rfl

/-- A recomputation with the end of its event: the allocation as the inputs give it (R96 to R101). -/
theorem recomputed_supply (s : State) : (endEvent (recomputeShares s)).supply = allocationOf s :=
  ((endEvent_ended _).same State.supply fun _ => rfl).trans (recomputeShares_supply s)

/-- SUPPLY_REPORT stores the clamped report, and the arbiter computes again (R93, R96 to R101). -/
theorem supplyReport_feeds {body : List Byte} {s : State} (running : s.inReset = false) (length : body.length = 9) :
    let rating := min 150000 (u32 body 0)
    let derate := max 50 (min 100 (u8 body 4))
    let battery := min 150000 (u32 body 5)
    let kept := rating = u32 body 0 ∧ derate = u8 body 4 ∧ battery = u32 body 5
    exec (.supplyReport (s.call .platform) body) s = .next
      (place .platform
        (frame 0xB0 ((if kept then 0 else 1) :: (leBytes 4 rating ++ leBytes 1 derate ++ leBytes 4 battery)))
        (endEvent (recomputeShares
          { s with report := { rating := rating, derate := derate, battery := some battery, received := true } }))) := by
  intro rating derate battery kept
  have shape : shapeSupplyReport body = some ⟨u32 body 0, u8 body 4, u32 body 5⟩ := if_pos length
  refine (exec_served (kind := .supplyReport) (t := (ownSupplyReport ⟨u32 body 0, u8 body 4, u32 body 5⟩ s).1)
    (reply := (ownSupplyReport ⟨u32 body 0, u8 body 4, u32 body 5⟩ s).2) running (admitted_platform rfl)
    (served_eq_some.mpr ⟨_, shape, rfl⟩)).trans ?_
  simp only [ownSupplyReport, clampNat_eq _ _ _ (Nat.zero_le _), clampNat_eq 50 100 _ (by decide), Nat.zero_max]
  refine congrArg Host.Outcome.next (answer_adjusted (kept := kept) _ _ ?_ _ _)
  simp only [Bool.or_eq_false_iff, bne_eq_false_iff_eq, and_assoc]
  rfl

/-! ## SET_SUPPLY_CONFIG (R94, R95) -/

theorem supplyConfigValid_iff (c : SupplyConfig) :
    supplyConfigValid c = true ↔
      ¬(20000 < c.margin ∨ c.unknownRating < 5000 ∨ 150000 < c.unknownRating ∨ c.batteryDefault < 5000 ∨
        150000 < c.batteryDefault ∨ 50 < c.tripPercent) := by
  simp only [supplyConfigValid, Bool.and_eq_true, decide_eq_true_eq, Config.powerMax, not_or, Nat.not_lt, and_assoc]

theorem configureSupply_changed {c : SupplyConfig} {s : State} (changed : c ≠ s.supplyCfg) :
    configureSupply c s = endEvent (recomputeShares { s with supplyCfg := c }) := if_neg changed

/-- What looks neither at the arbiter's fields, at what offers write nor at the lines stays under a stored one. -/
theorem configureSupply_same {α : Type} (f : State → α) (c : SupplyConfig) (s : State)
    (fields : ∀ (u : State) c, f { u with supplyCfg := c } = f u) (offers : ∀ u : State, f u.withoutOffers = f u)
    (ends : ∀ u : State, f u.withoutEnd = f u) : f (configureSupply c s) = f s := by
  by_cases same : c = s.supplyCfg
  · rw [configureSupply, if_pos same]
  · rw [configureSupply_changed same]
    exact ((recomputeShares_offered _).same_ended f offers ends).trans (fields s c)

theorem configureSupply_supplyCfg (c : SupplyConfig) (s : State) : (configureSupply c s).supplyCfg = c := by
  by_cases same : c = s.supplyCfg
  · rw [configureSupply, if_pos same, same]
  · rw [configureSupply_changed same]
    exact (recomputeShares_offered _).same_ended State.supplyCfg (fun _ => rfl) fun _ => rfl

/-- Settles O36: the clamped fields stored, and the allocation computed from them. -/
theorem supplyRequestsFeedTheArbiter : Obligations.SupplyRequestsFeedTheArbiter := by
  refine ⟨fun body s running length => ?_, fun body c s running mode shape => ?_⟩
  · intro rating derate battery kept adapter available demand
    let stored : State :=
      { s with report := { rating := rating, derate := derate, battery := some battery, received := true } }
    have supply : (endEvent (recomputeShares stored)).supply = allocationOf stored := recomputed_supply stored
    have same := fun {α : Type} (f : State → α) offers ends =>
      (recomputeShares_offered stored).same_ended f offers ends
    have report : (endEvent (recomputeShares stored)).report = stored.report :=
      same State.report (fun _ => rfl) fun _ => rfl
    have power : (allocationOf stored).available = available := availablePower_received _ _ _ _ _
    refine ⟨?_, endEvent (recomputeShares stored), supplyReport_feeds running length, report, ?_, ?_, ?_, fun d => ?_, ?_,
      fun grants lines held => ?_, same State.accounts (fun _ => rfl) fun _ => rfl,
      same State.thermal (fun _ => rfl) fun _ => rfl,
      same (fun u => { u with report := s.report }.withoutChain) (fun _ => rfl) fun _ => rfl⟩
    · exact (exec_request (kind := .supplyReport) running (by omega)).trans
        (congrArg Host.Outcome.next (respond_denied rfl))
    · rw [supply]
      exact sourceOf_eq _
    · rw [supply]
      exact power
    · rw [supply, ← power]
      exact Nat.sub_sub _ _ _
    · rw [supply]
      change (PerDomain.ofFn fun d => demandOf _ _).get d = _
      rw [PerDomain.get_ofFn, demandOf, capped_eq, capped_eq]
    · rw [supply]
      rfl
    · have unchanged : stored = s := by
        have : stored.report = s.report := report.symm.trans held
        change { s with report := stored.report } = s
        rw [this]
      rw [unchanged, recomputeShares_of_done ((grantsSafe_iff s).mp grants .allocation), endEvent_of_follows lines.follows]
  · intro x invalid time new
    have taken : ∀ {t reply}, ownSetSupplyConfig c s = (t, reply) → x = .next (answer .platform .setSupplyConfig reply t) :=
      fun own => exec_served (kind := .setSupplyConfig) running (admitted_safe rfl mode) (served_eq_some.mpr ⟨c, shape, own⟩)
    refine ⟨fun bad => taken (t := s) (reply := .bare .invalid) ?_, fun good => ?_⟩
    · rw [ownSetSupplyConfig, if_neg fun valid => (supplyConfigValid_iff c).mp valid bad]
    · have clamped : clampNat 1 1000 c.tripTime = time := clampNat_eq _ _ _ (by decide)
      have own : ownSetSupplyConfig c s = (configureSupply new s, .taken (time != c.tripTime) (leBytes 2 time)) := by
        rw [ownSetSupplyConfig, if_pos ((supplyConfigValid_iff c).mpr good)]
        simp only [clamped]
        rfl
      refine ⟨configureSupply new s, (taken own).trans (by rw [answer_taken]; rfl), configureSupply_supplyCfg _ _,
        fun same => if_pos same, fun changed => ?_, ?_, ?_, ?_⟩
      · rw [configureSupply_changed changed]
        exact (recomputeShares_done (x := .allocation) (.inr rfl)).endEvent
      · exact configureSupply_same State.accounts new s (fun _ _ => rfl) (fun _ => rfl) fun _ => rfl
      · exact configureSupply_same State.thermal new s (fun _ _ => rfl) (fun _ => rfl) fun _ => rfl
      · exact configureSupply_same (fun u => { u with supplyCfg := s.supplyCfg }.withoutChain) new s (fun _ _ => rfl)
          (fun _ => rfl) fun _ => rfl

end Sys2Proof.Machine

/-! # Power channels: samples, deliveries and SET_POWER_CHANNEL (R15 to R20, R79 to R82, R105, R121 to R126) -/

namespace Sys2Proof.Machine

open Sys2Proof

/-! ## What an arrival reaches -/

/-- s without what a delivery to a domain or to the arbiter writes. -/
def State.withoutDelivery (s : State) : State :=
  { s with
    lines := State.reset.lines, faults := [], severity := .clear, accounts := State.reset.accounts
    supply := State.reset.supply, contributors := State.reset.contributors, grants := State.reset.grants
    compliance := State.reset.compliance, notices := State.reset.notices, schedule := State.reset.schedule }

/-- t comes from s by a delivery to a domain or to the arbiter. -/
def Delivered (s t : State) : Prop := t.withoutDelivery = s.withoutDelivery

variable {s t u : State}

theorem Delivered.trans (h : Delivered s t) (h' : Delivered t u) : Delivered s u := Eq.trans h' h

theorem Delivered.same {α : Type} (f : State → α) (h : Delivered s t) (blind : ∀ u : State, f u.withoutDelivery = f u) :
    f t = f s :=
  same_of_erased State.withoutDelivery f blind h

theorem Logged.delivered (h : Logged s t) : Delivered s t := h.same State.withoutDelivery fun _ => rfl

theorem Offered.delivered (h : Offered s t) : Delivered s t := h.same State.withoutDelivery fun _ => rfl

theorem Delivered.ended (h : Delivered s t) : Delivered s (endEvent t) :=
  h.trans ((endEvent_ended t).same State.withoutDelivery fun _ => rfl)

theorem deliverToDomain_delivered (d : DomainId) (v : PowerChannel) (s : State) :
    Delivered s (deliverToDomain d v s) := by
  unfold deliverToDomain
  split
  · rfl
  · rename_i q power _
    obtain ⟨c, logged⟩ := complianceDelivery_logged d q power s
    have judged : Delivered s (complianceDelivery d q power s) := Delivered.trans (t := setCompliance d c s) rfl logged.delivered
    have stored : ∀ u : State, Delivered u (accountDelivery d power v.interval u) := fun u =>
      Eq.trans (settleAccount_offered d _ u).delivered rfl
    exact (judged.trans (stored _)).ended

/-- What neither offers nor the end of an event write stays under a change of REST. -/
theorem restChange_same {α : Type} (f : State → α) (before : Nat) (s : State)
    (offers : ∀ u : State, f u.withoutOffers = f u) (ends : ∀ u : State, f u.withoutEnd = f u) :
    f (restChange before s) = f s := by
  unfold restChange
  split
  · rfl
  · exact (recomputeShares_offered s).same_ended f offers ends

theorem restChange_delivered (before : Nat) (s : State) : Delivered s (restChange before s) :=
  restChange_same State.withoutDelivery before s (fun _ => rfl) fun _ => rfl

/-- A delivery to the watch reaches the watch, and the log. -/
theorem deliverToWatch_delivered (old : ChannelState) (v : PowerChannel) (s : State) :
    ∃ w, Delivered { s with watch := w } (deliverToWatch old v s) := by
  have judged : ∀ power, ∃ w, Delivered { s with watch := w } (endEvent (watchDelivery power s)) := by
    intro power
    obtain ⟨w, logged⟩ := watchDelivery_logged power s
    exact ⟨w, logged.delivered.ended⟩
  unfold deliverToWatch
  split
  · exact judged _
  · exact judged _
  · split
    · exact ⟨s.watch, rfl⟩
    · unfold watchFailure
      split
      · exact ⟨_, rfl⟩
      · exact ⟨s.watch, rfl⟩
      · exact ⟨s.watch, rfl⟩
  · exact ⟨s.watch, rfl⟩
  · exact ⟨s.watch, rfl⟩

/-- Only a PM4 arrival reaches the watch. -/
theorem deliver_delivered (n : PowerId) (old v : PowerChannel) (s : State) :
    ∃ w, (n ≠ .pm4 → w = s.watch) ∧ Delivered { s with watch := w } (deliver n old v s) := by
  cases n with
  | pm0 => exact ⟨s.watch, fun _ => rfl, deliverToDomain_delivered .d0 v s⟩
  | pm1 => exact ⟨s.watch, fun _ => rfl, deliverToDomain_delivered .d1 v s⟩
  | pm2 => exact ⟨s.watch, fun _ => rfl, deliverToDomain_delivered .d2 v s⟩
  | pm3 => exact ⟨s.watch, fun _ => rfl, restChange_delivered _ s⟩
  | pm4 =>
    obtain ⟨w, h⟩ := deliverToWatch_delivered old.state v s
    exact ⟨w, fun other => absurd rfl other, h⟩

/-! ## SAMPLE_ARRIVAL (R15 to R17) -/

/-- The record of a channel after an arrival, with its timer restarted (R16). -/
def PowerChannel.arrived (v : PowerChannel) (sample : Option Nat) : PowerChannel :=
  { v.after sample with timer := Timer.start v.interval }

/-- The state in which an arrival is delivered: the record stored, and PCH_FAILED reported (R16, R19). -/
def arrived (n : PowerId) (sample : Option Nat) (s : State) : State :=
  reportPower n (s.powers.get n).state ((s.powers.get n).arrived sample).state
    (setPowerRecord n ((s.powers.get n).arrived sample) s)

theorem exec_sampleArrival {n : PowerId} (sample : Option Nat) (running : s.inReset = false)
    (due : (s.powers.get n).timer.due = true) :
    exec (.sampleArrival n sample) s =
      .next (deliver n (s.powers.get n) ((s.powers.get n).arrived sample) (arrived n sample s)) := by
  simp only [exec, execSampleArrival, outsideReset_running _ s running, await_of_due _ s due]
  rfl

theorem arrived_logged (n : PowerId) (sample : Option Nat) (s : State) :
    Logged (setPowerRecord n ((s.powers.get n).arrived sample) s) (arrived n sample s) := reportPower_logged _ _ _ _

theorem stateAfterBad_eq {old : ChannelState} (enabled : old ≠ .disabled) (run hold : Nat) :
    stateAfterBad old run hold = badState old run hold := by
  have bound : (run ≤ hold) = ¬hold < run := propext Nat.not_lt.symm
  cases old with
  | disabled => exact absurd rfl enabled
  | failed => exact (if_pos (.inl rfl)).symm
  | _ => simp only [stateAfterBad, badState, bound, ite_not, reduceCtorEq, false_or, if_true, if_false]

/-- The record after an arrival, by the sample (R16). -/
theorem PowerChannel.arrived_eq {v : PowerChannel} (enabled : v.state ≠ .disabled) (sample : Option Nat) :
    v.arrived sample =
      match sample with
      | some p =>
        { v with value := some (min p 150000), state := .valid, badRun := 0, timer := Timer.start v.interval }
      | none =>
        { v with
          badRun := min 8 (v.badRun + 1), state := badState v.state (min 8 (v.badRun + 1)) v.holdCount
          timer := Timer.start v.interval } := by
  cases sample with
  | some p => rfl
  | none => rw [PowerChannel.arrived, PowerChannel.after, stateAfterBad_eq enabled]

/-- A channel left STARTING was STARTING. -/
theorem starting_of_badState {old : ChannelState} {run hold : Nat} (h : badState old run hold = .starting) :
    old = .starting := by
  unfold badState at h
  split at h
  · cases h
  · split at h
    · assumption
    · cases h

/-- An arrival that leaves the channel STARTING delivers nothing. -/
theorem deliver_starting {n : PowerId} {v w : PowerChannel} (before : v.state = .starting) (after : w.state = .starting)
    (s : State) (held : s.powers.pm3 = w ∨ n ≠ .pm3) : deliver n v w s = s := by
  cases n with
  | pm3 =>
    have rest : restValue s.powers.pm3 s.restFail = restValue v s.restFail := by
      rw [held.resolve_right (fun h => h rfl), restValue, restValue, before, after]
    exact if_pos rest
  | _ => simp [deliver, deliverToDomain, domainDelivery, deliverToWatch, after]

theorem reportPower_unfailed {n : PowerId} {old new : ChannelState} (before : old ≠ .failed) (after : new ≠ .failed)
    (s : State) : reportPower n old new s = s := by
  simp [reportPower, before, after]

/-- Settles O17: the record stored, and what the delivery behind it reaches. -/
theorem sampleUpdatesItsChannel : Obligations.SampleUpdatesItsChannel := by
  intro n sample s running due enabled v run state after
  have record : (s.powers.get n).arrived sample = after := PowerChannel.arrived_eq enabled sample
  obtain ⟨w, watch, delivered⟩ := deliver_delivered n (s.powers.get n) after (arrived n sample s)
  have whole : ∀ {α : Type} (f : State → α), (∀ u : State, f u.withoutDelivery = f u) →
      f (deliver n (s.powers.get n) after (arrived n sample s)) =
        f { setPowerRecord n after s with watch := w } := by
    intro α f blind
    refine (delivered.same f blind).trans (Delivered.same f (s := { setPowerRecord n after s with watch := w }) ?_ blind)
    have logged := arrived_logged n sample s
    rw [record] at logged
    exact logged.same (fun u => State.withoutDelivery { u with watch := w }) fun _ => rfl
  have watched : (arrived n sample s).watch = s.watch := (arrived_logged n sample s).same State.watch fun _ => rfl
  refine ⟨_, exec_sampleArrival sample running due, ?_⟩
  rw [record]
  refine ⟨whole State.powers fun _ => rfl, fun none starting => ?_, fun other => ?_, whole State.thermal fun _ => rfl,
    whole (fun u => { u with powers := s.powers, watch := s.watch, severity := s.severity }.withoutChain) fun _ => rfl⟩
  · have before : (s.powers.get n).state = .starting := starting_of_badState starting
    have stays : after.state = .starting := by
      subst none
      exact starting
    have quiet : arrived n sample s = setPowerRecord n after s := by
      rw [arrived, record]
      exact reportPower_unfailed (by simp [before]) (by simp [stays]) _
    rw [quiet]
    refine deliver_starting before stays _ ?_
    by_cases pm3 : n = .pm3
    · subst pm3
      exact .inl rfl
    · exact .inr pm3
  · exact (whole State.watch fun _ => rfl).trans ((watch other).trans watched)

/-! ## The supply trip watch (R105, R107, R108) -/

/-- Settles O20: the table of R105 at a PM4 delivery, and R108 at a failure. -/
theorem sysDeliveryDrivesTheTripWatch : Obligations.SysDeliveryDrivesTheTripWatch := by
  intro sample s running due enabled v after power exceeds
  have record : (s.powers.get .pm4).arrived sample = _ := PowerChannel.arrived_eq enabled sample
  have state : ((s.powers.get .pm4).arrived sample).state = after := by
    rw [record]
    cases sample <;> rfl
  have value : after = .valid ∨ after = .holding → ((s.powers.get .pm4).arrived sample).value.getD 0 = power := by
    intro _
    rw [record]
    cases sample <;> rfl
  have same := fun {α : Type} (f : State → α) blind => (arrived_logged .pm4 sample s).same f blind
  have watched : ∀ u, (endEvent u).watch = u.watch := fun u => (endEvent_ended u).same State.watch fun _ => rfl
  refine ⟨_, exec_sampleArrival sample running due, fun delivers => ?_, fun unfailed failed => ?_, fun quiet => ?_⟩
  · have judged : (deliver .pm4 (s.powers.get .pm4) ((s.powers.get .pm4).arrived sample) (arrived .pm4 sample s)) =
        endEvent (watchDelivery power (arrived .pm4 sample s)) := by
      rw [← value delivers]
      rcases delivers with h | h <;> simp only [deliver, deliverToWatch, state, h]
    have inputs := same (fun u => (u.watch, u.supply, u.supplyCfg)) fun _ => rfl
    simp only [Prod.mk.injEq] at inputs
    obtain ⟨watch, supply, supplyCfg⟩ := inputs
    rw [judged, watched, watchDelivery_watch, watch, supply, supplyCfg]
    exact ⟨rfl, rfl⟩
  · have fails : (deliver .pm4 (s.powers.get .pm4) ((s.powers.get .pm4).arrived sample) (arrived .pm4 sample s)) =
        watchFailure (arrived .pm4 sample s) := by
      simp only [deliver, deliverToWatch, state, failed]
      exact if_neg unfailed
    have watch : (arrived .pm4 sample s).watch = s.watch := same State.watch fun _ => rfl
    rw [fails, watchFailure, watch]
    cases held : s.watch.state <;> simp [watch, held]
  · have watch : (arrived .pm4 sample s).watch = s.watch := same State.watch fun _ => rfl
    have nothing : (deliver .pm4 (s.powers.get .pm4) ((s.powers.get .pm4).arrived sample) (arrived .pm4 sample s)) =
        arrived .pm4 sample s := by
      rcases quiet with starting | ⟨was, stays⟩
      · simp only [deliver, deliverToWatch, state, starting]
      · simp only [deliver, deliverToWatch, state, stays]
        exact if_pos was
    rw [nothing, watch]

/-! ## SET_POWER_CHANNEL (R18, R20) -/

/-- Another fail value is REST or leaves it (R18). -/
theorem restValue_failValue (v : PowerChannel) (failValue failValue' : Nat) :
    restValue v failValue' = failValue' ∨ restValue v failValue' = restValue v failValue := by
  cases state : v.state <;> cases value : v.value <;> simp [restValue, state, value]

/-- REST reads the state and the value of PM3. -/
theorem restValue_congr {v w : PowerChannel} (state : w.state = v.state) (value : w.value = v.value) (failValue : Nat) :
    restValue w failValue = restValue v failValue := by
  rw [restValue, restValue, state, value]

/-- The fail value is PM3's, whose change of REST alone reaches the arbiter (R18, R20). -/
theorem configurePower_eq (n : PowerId) (interval hold fail : Nat) (s : State) :
    let v := s.powers.get n
    let stored := setPowerRecord n
      { v with
        interval := interval, holdCount := hold
        timer := if interval = v.interval then v.timer else Timer.start interval } s
    configurePower n interval hold fail s =
      if n = .pm3 then restChange (restValue s.powers.pm3 s.restFail) { stored with restFail := fail } else stored := by
  cases n <;> rfl

/-- Settles O18: the clamped fields stored, and the arbiter where REST changes. -/
theorem setPowerChannelConfiguresTheChannel : Obligations.SetPowerChannelConfiguresTheChannel := by
  refine ⟨fun v failValue => ⟨?_, ?_⟩, fun body r s running shape => ?_⟩
  · rintro (state | state) <;> rw [restValue, state]
  · rintro p (state | state) value <;> rw [restValue, state, value] <;> rfl
  intro e
  have taken : ∀ {t reply}, ownSetPowerChannel r s = (t, reply) →
      e = .next (answer .platform .setPowerChannel reply t) := fun own =>
    exec_served (kind := .setPowerChannel) running (admitted_platform rfl) (served_eq_some.mpr ⟨r, shape, own⟩)
  refine ⟨fun unknown => taken (t := s) (reply := .bare .invalid) (by
    rw [ownSetPowerChannel, PowerId.ofNumber_of_le unknown]), fun n named => ?_⟩
  intro v interval invalid
  refine ⟨fun bad => taken (t := s) (reply := .bare .invalid) ?_, fun good => ?_⟩
  · rw [ownSetPowerChannel, named, PowerId.ofNumber_number]
    exact if_pos bad
  have clamped : clampNat 1 16 r.interval = interval := clampNat_eq _ _ _ (by decide)
  have own : ownSetPowerChannel r s =
      (configurePower n interval r.holdCount r.failValue s, .taken (interval != r.interval) (leBytes 1 interval)) := by
    rw [ownSetPowerChannel, named, PowerId.ofNumber_number]
    simp only [clamped]
    exact if_neg good
  have configured := configurePower_eq n interval r.holdCount r.failValue s
  refine ⟨_, (taken own).trans (by rw [answer_taken]; rfl), ?_⟩
  rw [configured]
  by_cases pm3 : n = .pm3
  · subst pm3
    let next : PowerChannel :=
      { v with
        interval := interval, holdCount := r.holdCount
        timer := if interval = v.interval then v.timer else Timer.start interval }
    let stored : State := { setPowerRecord .pm3 next s with restFail := r.failValue }
    have record : stored.powers.pm3 = next := rfl
    have reaches := fun {α : Type} (f : State → α) offers ends =>
      restChange_same f (restValue s.powers.pm3 s.restFail) stored offers ends
    have rest : restValue stored.powers.pm3 stored.restFail = restValue s.powers.pm3 r.failValue :=
      restValue_congr (v := s.powers.pm3) (w := next) rfl rfl r.failValue
    rw [if_pos rfl, if_pos rfl]
    refine ⟨reaches State.powers (fun _ => rfl) fun _ => rfl, reaches State.restFail (fun _ => rfl) fun _ => rfl, fun same => ?_,
      fun changed => ?_, reaches State.accounts (fun _ => rfl) fun _ => rfl,
      reaches (fun u => { u with powers := s.powers, restFail := s.restFail }.withoutChain) (fun _ => rfl) fun _ => rfl⟩
    · have stays : restValue stored.powers.pm3 stored.restFail = restValue s.powers.pm3 s.restFail :=
        (reaches (fun u => restValue u.powers.pm3 u.restFail) (fun _ => rfl) fun _ => rfl).symm.trans same
      rw [restChange, if_pos stays]
      rfl
    · have moved : restValue stored.powers.pm3 stored.restFail ≠ restValue s.powers.pm3 s.restFail := fun same =>
        changed ((reaches (fun u => restValue u.powers.pm3 u.restFail) (fun _ => rfl) fun _ => rfl).trans same)
      have fails : restValue stored.powers.pm3 stored.restFail = r.failValue :=
        rest.trans ((restValue_failValue _ s.restFail _).resolve_right fun same => moved (rest.trans same))
      rw [restChange, if_neg moved, recomputed_supply]
      change poolOf _ (restValue stored.powers.pm3 stored.restFail) _ = _
      rw [fails]
      rfl
  · have rest : ((s.powers.set n _).pm3) = s.powers.pm3 :=
      PerPower.get_set_of_ne s.powers n .pm3
        { v with
          interval := interval, holdCount := r.holdCount
          timer := if interval = v.interval then v.timer else Timer.start interval } fun same => pm3 same.symm
    rw [if_neg pm3, if_neg pm3]
    refine ⟨rfl, rfl, fun _ => rfl, fun changed => absurd ?_ changed, rfl, rfl⟩
    rw [setPowerRecord, rest]

end Sys2Proof.Machine

/-! # Deliveries at the accounts and the compliance (R79 to R82, R121 to R126) -/

namespace Sys2Proof.Machine

open Sys2Proof

/-! ## The settle window (R122) -/

/-- A domain's compliance with its settle window started: in NORMAL the above count is 0 (R122). -/
def Compliance.settling (c : Compliance) (time : Nat) : Compliance :=
  { c with
    settle := some (Timer.start time)
    above := match c.state with
      | .normal => 0
      | .excess => c.above }

@[simp] theorem Compliance.settling_settling (c : Compliance) (time : Nat) :
    (c.settling time).settling time = c.settling time := by
  cases state : c.state <;> simp [settling, state]

theorem startSettle_compliance (d : DomainId) (s : State) :
    (startSettle d s).compliance =
      if (s.domains.get d).settleTime = 0 then s.compliance
      else s.compliance.set d ((s.compliance.get d).settling (s.domains.get d).settleTime) := by
  unfold startSettle
  dsimp only
  split <;> rfl

/-- Offers leave each domain's compliance as it is, or start its settle window. -/
def Windowed (s t : State) : Prop :=
  t.domains = s.domains ∧ ∀ d, t.compliance.get d = s.compliance.get d ∨
    t.compliance.get d = (s.compliance.get d).settling (s.domains.get d).settleTime

variable {s t u : State}

theorem Windowed.of_same (same : (t.domains, t.compliance) = (s.domains, s.compliance)) : Windowed s t := by
  obtain ⟨domains, compliance⟩ := Prod.mk.inj same
  exact ⟨domains, fun d => .inl (by rw [compliance])⟩

theorem Windowed.trans (h : Windowed s t) (h' : Windowed t u) : Windowed s u := by
  refine ⟨h'.1.trans h.1, fun d => ?_⟩
  rcases h.2 d with first | first <;> rcases h'.2 d with second | second <;> rw [second, first]
  · exact .inl rfl
  · exact .inr (by rw [h.1])
  · exact .inr rfl
  · exact .inr (by rw [h.1, Compliance.settling_settling])

theorem Windowed.inAnyOrder {todo : List (State → State)} (each : ∀ f ∈ todo, ∀ u, Windowed u (f u)) (s : State) :
    Windowed s (inAnyOrder todo s) :=
  inAnyOrder_keeps (Windowed s) (fun _ _ h => h) todo (fun f hf _ h => h.trans (each f hf _)) s (.of_same rfl)

theorem startSettle_windowed (d : DomainId) (s : State) : Windowed s (startSettle d s) := by
  refine ⟨startSettle_same State.domains (fun _ _ => rfl) d s, fun d' => ?_⟩
  rw [startSettle_compliance]
  split
  · exact .inl rfl
  · rw [PerDomain.get_set]
    split
    · rename_i own
      exact .inr (by rw [own])
    · exact .inl rfl

theorem resolve_windowed (d : DomainId) (s : State) : Windowed s (resolve d s) := by
  unfold resolve
  dsimp only
  split
  · exact .of_same rfl
  · split
    · exact Windowed.trans (.of_same rfl) (startSettle_windowed d _)
    · exact .of_same rfl

/-- Contributors offered to the resolver leave the compliance to the resolution. -/
theorem offered_windowed (d : DomainId) (c : PerDomain Contributors) (s : State) :
    Windowed s (resolve d { s with contributors := c }) :=
  Windowed.trans (t := { s with contributors := c }) (.of_same rfl) (resolve_windowed d _)

theorem recomputeShares_windowed (s : State) : Windowed s (recomputeShares s) := by
  have offer : ∀ before d u, Windowed u (offerShareIfChanged before d u) := by
    intro before d u
    unfold offerShareIfChanged
    split
    · exact .of_same rfl
    · exact offered_windowed d _ u
  exact ((Windowed.trans (t := { s with supply := allocationOf s }) (.of_same rfl) (offer _ .d0 _)).trans
    (offer _ .d1 _)).trans (offer _ .d2 _)

theorem settleAccount_windowed (d : DomainId) (next : Account) (s : State) : Windowed s (settleAccount d next s) := by
  have raised : ∀ (c : Prop) [Decidable c], Windowed s (if c then s.withAccount d next.settled
      else raise .burst (s.withAccount d next.settled)) := by
    intro c _
    split <;> exact .of_same rfl
  unfold settleAccount
  dsimp only
  split
  · exact raised _
  · refine (raised _).trans (Windowed.inAnyOrder ?_ _)
    simp only [List.mem_cons, List.not_mem_nil, or_false]
    rintro f (rfl | rfl) u
    · exact recomputeShares_windowed u
    · exact offered_windowed d _ u

theorem accountDelivery_windowed (d : DomainId) (power dt : Nat) (s : State) :
    Windowed s (accountDelivery d power dt s) := settleAccount_windowed d _ s

/-! ## The tables of R121 and R125 -/

/-- What a delivery leaves of its domain's compliance (R121, R125, R126). -/
def Compliance.judged (c : Compliance) (dom : DomainRecord) (limit : Nat) (q : Quality) (power : Nat) : Compliance :=
  if q = .substitute then { c with state := .normal, above := 0, below := 0 }
  else
    match c.state with
    | .normal =>
      if c.settle.isSome then c
      else if complianceThreshold limit dom.tolerance < power then
        if dom.aboveN ≤ c.above + 1 then { c with state := .excess, above := 0, below := 0 }
        else { c with above := c.above + 1 }
      else { c with above := 0 }
    | .excess =>
      if power ≤ limit then
        if dom.belowM ≤ c.below + 1 then { c with state := .normal, above := 0, below := 0 }
        else { c with below := c.below + 1 }
      else { c with below := 0 }

theorem judgeDelivery_judged (d : DomainId) (q : Quality) (judging : q ≠ .substitute) (power : Nat) (s : State) :
    let c := s.compliance.get d
    let after := c.judged (s.domains.get d) (s.grants.get d).limit q power
    (judgeDelivery d power s).compliance.get d = after ∧
      (c.state = .normal → after.state = .excess →
        judgeDelivery d power s = occur .excess d.number (some power) (setCompliance d after s)) := by
  have occurs : ∀ u : State, (occur .excess d.number (some power) u).compliance = u.compliance := fun u =>
    (occur_logged _ _ _ u).same State.compliance fun _ => rfl
  dsimp only
  rw [Compliance.judged, if_neg judging, judgeDelivery]
  cases state : (s.compliance.get d).state with
  | normal =>
    dsimp only
    cases settle : (s.compliance.get d).settle with
    | some w => exact ⟨rfl, fun _ became => absurd (state.symm.trans became) (by simp)⟩
    | none =>
      dsimp only [Option.isSome_none]
      rw [if_neg Bool.false_ne_true]
      split
      · split
        · refine ⟨?_, fun _ _ => rfl⟩
          rw [occurs]
          exact PerDomain.get_set_self _ _ _
        · exact ⟨PerDomain.get_set_self _ _ _, fun _ became => by cases became⟩
      · exact ⟨PerDomain.get_set_self _ _ _, fun _ became => by cases became⟩
  | excess =>
    dsimp only
    refine ⟨?_, fun normal => by cases normal⟩
    split
    · split <;> exact PerDomain.get_set_self _ _ _
    · exact PerDomain.get_set_self _ _ _

/-- A delivery is judged as the tables say; one that completes EXCESS is an occurrence of it (R121, R125, R126). -/
theorem complianceDelivery_judged (d : DomainId) (q : Quality) (power : Nat) (s : State) :
    let c := s.compliance.get d
    let after := c.judged (s.domains.get d) (s.grants.get d).limit q power
    (complianceDelivery d q power s).compliance.get d = after ∧
      (c.state = .normal → after.state = .excess →
        complianceDelivery d q power s = occur .excess d.number (some power) (setCompliance d after s)) := by
  cases q with
  | valid => exact judgeDelivery_judged d .valid (by simp) power s
  | held => exact judgeDelivery_judged d .held (by simp) power s
  | substitute =>
    dsimp only
    rw [Compliance.judged, if_pos rfl]
    refine ⟨?_, fun _ became => by cases became⟩
    simp only [complianceDelivery, substituteCompliance]
    split <;> exact PerDomain.get_set_self _ _ _

/-- The tables of R121 and R125, by what a delivery counts. -/
theorem Compliance.judged_table (c : Compliance) (dom : DomainRecord) (limit : Nat) (q : Quality) (power : Nat) :
    let counted := q ≠ .substitute ∧ c.state = .normal ∧ c.settle = none ∧ limit * (100 + dom.tolerance) / 100 < power
    let enters := counted ∧ dom.aboveN ≤ c.above + 1
    let good := q ≠ .substitute ∧ c.state = .excess ∧ power ≤ limit
    let leaves := c.state = .excess ∧ (q = .substitute ∨ (good ∧ dom.belowM ≤ c.below + 1))
    let after := c.judged dom limit q power
    after.state = (if enters then .excess else if leaves then .normal else c.state) ∧
      after.below = (if q = .substitute ∨ enters ∨ leaves then 0
        else if good then c.below + 1 else if c.state = .excess then 0 else c.below) ∧
      after.above = (if q = .substitute ∨ enters ∨ leaves then 0
        else if counted then c.above + 1 else if c.state = .normal ∧ c.settle = none then 0 else c.above) := by
  obtain ⟨state, above, below, settle⟩ := c
  dsimp only
  by_cases substitute : q = .substitute
  · cases state <;> simp [judged, substitute]
  cases state with
  | normal =>
    cases settle with
    | some w => simp [judged, substitute]
    | none =>
      by_cases exceeds : limit * (100 + dom.tolerance) / 100 < power
      · by_cases full : dom.aboveN ≤ above + 1 <;> simp [judged, complianceThreshold, substitute, exceeds, full]
      · simp [judged, complianceThreshold, substitute, exceeds]
  | excess =>
    by_cases within : power ≤ limit
    · by_cases full : dom.belowM ≤ below + 1 <;> simp [judged, substitute, within, full]
    · simp [judged, substitute, within]

/-! ## A delivery to a domain -/

/-- What an arrival delivers to its domain, as `Delivers` says (R16, R17). -/
theorem domainDelivery_of_delivers {d : DomainId} {sample : Option Nat} {q : Quality} {power : Nat}
    (h : Delivers d sample q power s) :
    domainDelivery d ((s.powers.get (channelOf d)).arrived sample) (arrived (channelOf d) sample s) =
      some (q, power) := by
  have same := (arrived_logged (channelOf d) sample s).same (fun u => (u.profile, u.column)) fun _ => rfl
  obtain ⟨profile, column⟩ := Prod.mk.inj same
  rw [domainDelivery, profile, column]
  rcases h with ⟨p, rfl, rfl, rfl⟩ | ⟨rfl, enabled, after, rfl, value⟩ | ⟨rfl, enabled, after, rfl, rfl⟩
  · rfl
  · rw [PowerChannel.arrived_eq enabled]
    simp only [after, value, Option.getD_some]
  · rw [PowerChannel.arrived_eq enabled]
    simp only [after]
    rfl

theorem exec_delivery {d : DomainId} {sample : Option Nat} {q : Quality} {power : Nat} (running : s.inReset = false)
    (due : (s.powers.get (channelOf d)).timer.due = true) (h : Delivers d sample q power s) :
    exec (.sampleArrival (channelOf d) sample) s = .next
      (endEvent (accountDelivery d power (s.powers.get (channelOf d)).interval
        (complianceDelivery d q power (arrived (channelOf d) sample s)))) := by
  have toDomain : ∀ v w u, deliver (channelOf d) v w u = deliverToDomain d w u := by cases d <;> exact fun _ _ _ => rfl
  have interval : ((s.powers.get (channelOf d)).arrived sample).interval = (s.powers.get (channelOf d)).interval := by
    cases sample <;> rfl
  rw [exec_sampleArrival sample running due, toDomain, deliverToDomain, domainDelivery_of_delivers h]
  dsimp only
  rw [interval]

theorem stateRule_eq (old : AccountState) (capacity credit threshold : Nat) :
    stateRule old capacity credit threshold = ruledState old capacity credit threshold := by
  cases old <;> simp [stateRule, ruledState]

theorem Account.selected_eq (a : Account) : a.selected = if a.state = .burst then a.bEff else a.sEff := by
  cases state : a.state <;> simp [selected, state]

/-- The credit moves by what a delivery left of S_eff, within 0 … capacity (R79). -/
theorem creditAfter_eq (credit capacity sEff power dt : Nat) :
    creditAfter credit capacity sEff power dt =
      (max 0 (min (capacity : Int) (credit + ((sEff : Int) - power) * dt))).toNat := by
  rw [creditAfter, clampInt_eq _ _ _ (Int.natCast_nonneg _)]

/-- A first record behind a report of another kind (R144). -/
theorem FirstRecord.behind {kind : FaultKind} {n : Nat} {severity : Severity} {v : Option Int}
    (h : FirstRecord kind n severity v t u) (uptime : t.uptime = s.uptime)
    (pairs : ∀ r ∈ t.faults, (r.kind, r.subject) = (kind, n) →
      ∃ r' ∈ s.faults, (r'.kind, r'.subject) = (kind, n)) : FirstRecord kind n severity v s u := by
  intro first
  rw [← uptime]
  refine h fun r inside same => ?_
  obtain ⟨r', inside', same'⟩ := pairs r inside same
  exact first r' inside' same'

/-- PCH_FAILED and its end leave the pairs of other kinds. -/
theorem arrived_pairs {n : PowerId} {sample : Option Nat} {kind : FaultKind} {m : Nat} (other : kind ≠ .pchFailed)
    (r : FaultRecord) (inside : r ∈ (arrived n sample s).faults) (same : (r.kind, r.subject) = (kind, m)) :
    ∃ r' ∈ s.faults, (r'.kind, r'.subject) = (kind, m) := by
  have mapped : ∀ f : FaultRecord → FaultRecord, (∀ r, ((f r).kind, (f r).subject) = (r.kind, r.subject)) →
      r ∈ s.faults.map f → ∃ r' ∈ s.faults, (r'.kind, r'.subject) = (kind, m) := by
    intro f keeps inside
    obtain ⟨r', inside', rfl⟩ := List.mem_map.mp inside
    exact ⟨r', inside', (keeps r').symm.trans same⟩
  unfold arrived reportPower at inside
  split at inside
  · cases held : logHolds (setPowerRecord n ((s.powers.get n).arrived sample) s).faults .pchFailed n.number with
    | false =>
      rw [occur_first _ _ _ _ held] at inside
      rcases List.mem_append.mp inside with old | new
      · exact ⟨r, old, same⟩
      · rw [List.mem_singleton.mp new] at same
        exact absurd (Prod.mk.inj same).1.symm other
    | true =>
      rw [occur_again _ _ _ _ held] at inside
      exact mapped _ (fun r => by split <;> rfl) inside
  · split at inside
    · exact mapped _ (fun r => by split <;> rfl) inside
    · exact ⟨r, inside, same⟩

/-- Settles O19: the account's next record, and the compliance as judged, behind which a settle window may start. -/
theorem deliveryReachesAccountAndCompliance : Obligations.DeliveryReachesAccountAndCompliance := by
  refine ⟨fun d sample q power s running due delivers => ?_, fun d sample q power s running due delivers => ?_⟩
  · intro a credit state
    refine ⟨_, exec_delivery running due delivers, ?_⟩
    have ended : ∀ u, (endEvent u).accounts = u.accounts := fun u => (endEvent_ended u).same State.accounts fun _ => rfl
    have accounts : (complianceDelivery d q power (arrived (channelOf d) sample s)).accounts = s.accounts := by
      obtain ⟨c, logged⟩ := complianceDelivery_logged d q power (arrived (channelOf d) sample s)
      exact (logged.same State.accounts fun _ => rfl).trans
        ((arrived_logged (channelOf d) sample s).same State.accounts fun _ => rfl)
    rw [ended, accountDelivery, settleAccount_accounts, accounts]
    refine congrArg (s.accounts.set d) ?_
    rw [Account.selected_eq, Account.ruled, stateRule_eq, creditAfter_eq]
    rfl
  · intro c dom limit counted enters good leaves above
    let reported := arrived (channelOf d) sample s
    let delivered := complianceDelivery d q power reported
    let after := c.judged dom limit q power
    have unseen := (arrived_logged (channelOf d) sample s).same
      (fun u => (u.compliance, u.domains, u.grants, u.uptime)) fun _ => rfl
    simp only [Prod.mk.injEq] at unseen
    obtain ⟨compliance, domains, grants, uptime⟩ := unseen
    obtain ⟨judged, completes⟩ := complianceDelivery_judged d q power reported
    simp only [reported, compliance, domains, grants] at judged completes
    obtain ⟨state, below, counts⟩ := c.judged_table dom limit q power
    have ended : ∀ u, (endEvent u).compliance = u.compliance := fun u =>
      (endEvent_ended u).same State.compliance fun _ => rfl
    have time : (delivered.domains.get d).settleTime = dom.settleTime := by
      obtain ⟨c, logged⟩ := complianceDelivery_logged d q power reported
      rw [(logged.same State.domains fun _ => rfl : delivered.domains = reported.domains)]
      exact congrArg (fun domains => (PerDomain.get domains d).settleTime) domains
    let interval := (s.powers.get (channelOf d)).interval
    have window := (accountDelivery_windowed d power interval delivered).2 d
    rw [show delivered.compliance.get d = after from judged, time] at window
    refine ⟨_, exec_delivery running due delivers, ?_⟩
    rw [ended]
    refine ⟨?_, fun entering => ?_, ?_, ?_⟩
    · refine Eq.trans ?_ state
      rcases window with same | settles
      · exact congrArg Compliance.state same
      · exact (congrArg Compliance.state settles).trans rfl
    · have unfailed : delivered = occur .excess d.number (some power) (setCompliance d after reported) := by
        refine completes entering.1.2.1 (state.trans ?_)
        exact if_pos entering
      have stays : Untouched (fun k _ => k = .excess)
          (occur .excess d.number (some power) (setCompliance d after reported))
          (endEvent (accountDelivery d power interval delivered)) := by
        rw [← unfailed]
        exact (accountDelivery_limited d power interval delivered).untouched.trans
          (endEventWith_untouched (fun _ => by decide) none _)
      exact FirstRecord.behind (t := reported)
        (FirstRecord.of_occur (u := setCompliance d after reported) rfl ⟨rfl, rfl⟩ stays) uptime
        fun r inside same => arrived_pairs (by decide) r inside same
    · refine Eq.trans ?_ below
      rcases window with same | settles
      · exact congrArg Compliance.below same
      · exact (congrArg Compliance.below settles).trans rfl
    · rcases window with same | settles
      · exact .inl ((congrArg Compliance.above same).trans counts)
      · cases became : after.state with
        | normal =>
          refine .inr ⟨(congrArg Compliance.above settles).trans ?_, (congrArg Compliance.settle settles).trans rfl⟩
          simp only [Compliance.settling, became]
        | excess =>
          refine .inl ((congrArg Compliance.above settles).trans (Eq.trans ?_ counts))
          simp only [Compliance.settling, became]
          rfl

end Sys2Proof.Machine

/-! # Profile entries and domain records (R46 to R48, R81, R84, R88, R99, R114, R115, R124) -/

namespace Sys2Proof.Machine

open Sys2Proof

/-! ## SET_PROFILE (R46 to R48) -/

/-- The account that a re-selection makes of its entry, as it is stored (R77, R78, R81, R82, R84). -/
theorem Account.switched_settled (a : Account) (e : Entry) (recover : Nat) :
    let capacity := (e.b - e.s) * e.w
    let threshold := max 1 (capacity * recover / 100)
    let state := ruledState a.state capacity (min a.credit capacity) threshold
    (a.switched e recover).settled =
      { s := e.s, b := e.b, w := e.w, capacity := capacity, credit := min a.credit capacity, state := state
        percent := a.percent, sEff := e.s * a.percent / 100, bEff := e.b * a.percent / 100, threshold := threshold
        allowance := if state = .burst then e.b * a.percent / 100 else e.s * a.percent / 100 } := by
  rw [Account.settled, Account.selected_eq, Account.switched, Account.ruled, stateRule_eq]
  rfl

/-- What looks neither at the table, at accounts, at what offers write nor at the lines stays under a stored entry. -/
theorem storeEntry_same {α : Type} (f : State → α) (d : DomainId) (c : Column) (e : Entry) (s : State)
    (profile : ∀ (u : State) p, f { u with profile := p } = f u)
    (accounts : ∀ (u : State) a, f { u with accounts := a } = f u) (offers : ∀ u : State, f u.withoutOffers = f u)
    (ends : ∀ u : State, f u.withoutEnd = f u) : f (storeEntry d c e s) = f s := by
  unfold storeEntry
  dsimp only
  split
  · exact ((reselectDomain_offered d _).same_ended f offers ends).trans
      (((settleAccount_offered d _ _).same f offers).trans ((accounts _ _).trans (profile s _)))
  · exact profile s _

/-- Settles O29: the stored entry, and the re-selected account of the column in use. -/
theorem setProfileStoresTheEntry : Obligations.SetProfileStoresTheEntry := by
  intro body d c e s running shape x invalid a capacity threshold state profile
  have taken : ∀ {t reply}, ownSetProfile ⟨d.number, c.number, e⟩ s = (t, reply) →
      x = .next (answer .platform .setProfile reply t) := fun own =>
    exec_served (kind := .setProfile) running (admitted_platform rfl) (served_eq_some.mpr ⟨_, shape, own⟩)
  have own : ownSetProfile ⟨d.number, c.number, e⟩ s =
      if entryValid e (s.domains.get d).lmin then (storeEntry d c e s, .bare .ok) else (s, .bare .invalid) := by
    rw [ownSetProfile, DomainId.ofNumber_number, Column.ofNumber_number]
  have valid : entryValid e (s.domains.get d).lmin = true ↔ ¬invalid := by
    simp only [entryValid_iff, Entry.Fits, invalid, not_or, Nat.not_lt]
  refine ⟨fun bad => ?_, fun good => ?_⟩
  · rw [if_neg fun h => valid.mp h bad] at own
    exact taken own
  rw [if_pos (valid.mpr good)] at own
  refine ⟨storeEntry d c e s, taken own, fun unused => ?_, fun used changed => ?_, ?_, ?_⟩
  · refine if_neg fun h => ?_
    rcases unused with other | same
    · exact other h.1
    · exact h.2 same
  · let stored : State := { s with profile := profile }
    have reselects : storeEntry d c e s = endEvent (reselectDomain d stored) := if_pos ⟨used, changed⟩
    have reaches := fun {α : Type} (f : State → α) offers ends =>
      (reselectDomain_offered d stored).same_ended f offers ends
    have entry : (stored.profile.get d).get stored.column = e := by
      simp only [stored, profile, used, PerDomain.get_set_self, PerColumn.get_set_self]
    rw [reselects]
    constructor
    · exact (reaches State.profile (fun _ => rfl) fun _ => rfl).trans
        ((accountSwitch_limited d stored).same State.profile fun _ => rfl)
    · rw [reaches State.accounts (fun _ => rfl) fun _ => rfl, accountSwitch, settleAccount_accounts, entry]
      exact congrArg (s.accounts.set d) (a.switched_settled e (s.domains.get d).recover)
  · exact storeEntry_same State.thermal d c e s (fun _ _ => rfl) (fun _ _ => rfl) (fun _ => rfl) fun _ => rfl
  · exact storeEntry_same (fun u => { u with profile := s.profile }.withoutChain) d c e s (fun _ _ => rfl) (fun _ _ => rfl)
      (fun _ => rfl) fun _ => rfl

/-! ## SET_DOMAIN (R114) -/

theorem recordValid_iff (r : DomainRecord) (columns : PerColumn Entry) :
    recordValid r columns = true ↔
      ¬(r.recover = 0 ∨ 100 < r.recover ∨ 2 < r.priority ∨ 150000 < r.floor ∨ 150000 < r.lmin ∨
        (∃ c, (columns.get c).s < r.lmin) ∨ 50 < r.tolerance ∨ r.aboveN = 0 ∨ 64 < r.aboveN ∨ r.belowM = 0 ∨
        64 < r.belowM) := by
  simp only [recordValid, Bool.and_eq_true, decide_eq_true_eq, lminFits_iff, Config.powerMax, not_or, not_exists,
    Nat.not_lt, Nat.one_le_iff_ne_zero, and_assoc]

/-- The effects of a changed domain record (R88, R99, R114, R115, R124). -/
def domainEffects (d : DomainId) (r old : DomainRecord) : List (State → State) :=
  [onlyIf (r.recover != old.recover) (accountRecover d), onlyIf (!r.sameArbitration old) recomputeShares,
    onlyIf (r.lmin != old.lmin) (resolve d), onlyIf (!r.sameJudging old) (zeroCounts d)]

theorem configureDomain_changed {d : DomainId} {r : DomainRecord} {s : State} (changed : r ≠ s.domains.get d) :
    configureDomain d r s =
      endEvent (inAnyOrder (domainEffects d r (s.domains.get d)) { s with domains := s.domains.set d r }) :=
  if_neg changed

/-- What each effect keeps where its fields change, all of them keep. -/
theorem domainEffects_keep {P : State → Prop} {d : DomainId} {r old : DomainRecord}
    (account : r.recover ≠ old.recover → ∀ u, P u → P (accountRecover d u))
    (shares : r.sameArbitration old = false → ∀ u, P u → P (recomputeShares u))
    (resolves : r.lmin ≠ old.lmin → ∀ u, P u → P (resolve d u))
    (zero : r.sameJudging old = false → ∀ u, P u → P (zeroCounts d u)) :
    ∀ f ∈ domainEffects d r old, ∀ u, P u → P (f u) := by
  have only : ∀ (b : Bool) (f : State → State), (b = true → ∀ u, P u → P (f u)) → ∀ u, P u → P (onlyIf b f u) := by
    intro b f keeps u before
    unfold onlyIf
    split
    · rename_i taken
      exact keeps taken u before
    · exact before
  simp only [domainEffects, List.mem_cons, List.not_mem_nil, or_false]
  rintro f (rfl | rfl | rfl | rfl)
  · exact only _ _ fun taken => account (bne_iff_ne.mp taken)
  · exact only _ _ fun taken => shares (by simpa using taken)
  · exact only _ _ fun taken => resolves (bne_iff_ne.mp taken)
  · exact only _ _ fun taken => zero (by simpa using taken)

/-- What an effect that is taken brings about, and the others keep, holds behind all. -/
theorem domainEffects_bring {P : State → Prop} {d : DomainId} {r old : DomainRecord} (g : State → State)
    (member : g ∈ domainEffects d r old) (draw : ∀ s k, P s → P { s with schedule := k }) (brings : ∀ u, P (g u))
    (keep : ∀ f ∈ domainEffects d r old, ∀ u, P u → P (f u)) (s : State) : P (inAnyOrder (domainEffects d r old) s) :=
  inAnyOrder_brings P (fun _ => True) draw (fun _ _ h => h) _ g member (fun u _ => brings u) (fun _ _ _ _ => trivial)
    (fun f hf u _ => keep f hf u) s trivial

/-- Behind the effect on the account there are offers only. -/
theorem domainEffects_offered (d : DomainId) (r old : DomainRecord) (s : State) :
    Offered (onlyIf (r.recover != old.recover) (accountRecover d) s) (inAnyOrder (domainEffects d r old) s) := by
  have congr : ∀ {s t}, Offered s t → Offered (accountRecover d s) (accountRecover d t) :=
    settleAccount_congr
      (next := fun u => Account.ruled
        { u.accounts.get d with
          threshold := recoverThreshold (u.accounts.get d).capacity (u.domains.get d).recover })
      fun _ => rfl
  refine Offered.inAnyOrder_cons (onlyIf_congr congr _) _ ?_ s
  simp only [List.mem_cons, List.not_mem_nil, or_false]
  rintro f (rfl | rfl | rfl) u
  · exact onlyIf_offered recomputeShares_offered _ u
  · exact onlyIf_offered (resolve_offered d) _ u
  · exact onlyIf_offered (f := zeroCounts d) (fun _ => rfl) _ u

/-- What looks neither at records, accounts, what offers write nor at the lines stays under a configured domain. -/
theorem configureDomain_same {α : Type} (f : State → α) (d : DomainId) (r : DomainRecord) (s : State)
    (domains : ∀ (u : State) v, f { u with domains := v } = f u)
    (accounts : ∀ (u : State) a, f { u with accounts := a } = f u) (offers : ∀ u : State, f u.withoutOffers = f u)
    (ends : ∀ u : State, f u.withoutEnd = f u) : f (configureDomain d r s) = f s := by
  by_cases same : r = s.domains.get d
  · rw [configureDomain, if_pos same]
  · rw [configureDomain_changed same]
    refine ((domainEffects_offered d r _ _).same_ended f offers ends).trans (Eq.trans ?_ (domains s (s.domains.set d r)))
    unfold onlyIf
    split
    · exact ((settleAccount_offered d _ _).same f offers).trans (accounts _ _)
    · rfl

theorem configureDomain_domains (d : DomainId) (r : DomainRecord) (s : State) :
    (configureDomain d r s).domains = s.domains.set d r := by
  by_cases same : r = s.domains.get d
  · rw [configureDomain, if_pos same, same, PerDomain.set_get_self]
  · rw [configureDomain_changed same]
    refine ((domainEffects_offered d r _ _).same_ended State.domains (fun _ => rfl) fun _ => rfl).trans ?_
    unfold onlyIf
    split
    · exact (settleAccount_limited d _ _).same State.domains fun _ => rfl
    · rfl

/-- A changed recover percent reaches the account (R88). -/
theorem configureDomain_accounts (d : DomainId) (r : DomainRecord) (s : State) :
    let a := s.accounts.get d
    let threshold := max 1 (a.capacity * r.recover / 100)
    let state := ruledState a.state a.capacity a.credit threshold
    (configureDomain d r s).accounts =
      if r.recover = (s.domains.get d).recover then s.accounts
      else s.accounts.set d
        { a with
          threshold := threshold, state := state, allowance := if state = .burst then a.bEff else a.sEff } := by
  intro a threshold state
  by_cases same : r = s.domains.get d
  · rw [configureDomain, if_pos same, if_pos (congrArg DomainRecord.recover same)]
  · rw [configureDomain_changed same]
    refine ((domainEffects_offered d r _ _).same_ended State.accounts (fun _ => rfl) fun _ => rfl).trans ?_
    by_cases kept : r.recover = (s.domains.get d).recover
    · rw [if_pos kept, onlyIf, if_neg (by simpa using kept)]
    · rw [if_neg kept, onlyIf, if_pos (by simpa using kept), accountRecover, settleAccount_accounts]
      simp only [PerDomain.get_set_self]
      refine congrArg (s.accounts.set d) ?_
      rw [Account.selected_eq, Account.ruled, stateRule_eq]
      rfl

section

variable {d : DomainId} {r : DomainRecord} {s : State}

/-- Changed arbitration fields make the arbiter compute again (R99, R115). -/
theorem configureDomain_allocates (changed : r.sameArbitration (s.domains.get d) = false) :
    (configureDomain d r s).supply = allocationOf (configureDomain d r s) := by
  have other : r ≠ s.domains.get d := by
    rintro rfl
    simp [DomainRecord.sameArbitration] at changed
  rw [configureDomain_changed other]
  refine State.Done.endEvent (x := .allocation) (domainEffects_bring (P := (State.Done · .allocation)) recomputeShares ?_
    (fun _ _ done => done.of_offering rfl) (fun u => recomputeShares_done (.inr rfl)) (domainEffects_keep ?_ ?_ ?_ ?_) _)
  · rw [domainEffects, changed]
    exact .tail _ (.head _)
  · exact fun _ u => settleAccount_done d _
  · exact fun _ u done => recomputeShares_done (.inl done)
  · exact fun _ u done => resolve_done d (.inl done)
  · exact fun _ u done => done.of_offering rfl

/-- A changed Lmin makes the resolver resolve again (R115). -/
theorem configureDomain_resolves (changed : r.lmin ≠ (s.domains.get d).lmin) :
    let t := configureDomain d r s
    (t.grants.get d).agrees (resolution (t.contributors.get d) r.lmin) = true := by
  have other : r ≠ s.domains.get d := fun same => changed (congrArg DomainRecord.lmin same)
  have done : (configureDomain d r s).Done (.grant d) := by
    rw [configureDomain_changed other]
    refine State.Done.endEvent (domainEffects_bring (P := (State.Done · (.grant d))) (resolve d) ?_
      (fun _ _ done => done.of_offering rfl) (fun u => resolve_done d (.inr rfl)) (domainEffects_keep ?_ ?_ ?_ ?_) _)
    · rw [domainEffects, bne_iff_ne.mpr changed]
      exact .tail _ (.tail _ (.head _))
    · exact fun _ u => settleAccount_done d _
    · exact fun _ u done => recomputeShares_done (.inl done)
    · exact fun _ u done => resolve_done d (.inl done)
    · exact fun _ u done => done.of_offering rfl
  have lmin : ((configureDomain d r s).domains.get d).lmin = r.lmin := by
    rw [configureDomain_domains, PerDomain.get_set_self]
  dsimp only
  rw [← lmin]
  exact done

theorem Windowed.state {s t : State} (h : Windowed s t) (d : DomainId) :
    (t.compliance.get d).state = (s.compliance.get d).state := by
  rcases h.2 d with same | settles
  · rw [same]
  · rw [settles]
    rfl

theorem Windowed.below {s t : State} (h : Windowed s t) (d : DomainId) :
    (t.compliance.get d).below = (s.compliance.get d).below := by
  rcases h.2 d with same | settles
  · rw [same]
  · rw [settles]
    rfl

theorem Windowed.above_zero {s t : State} (h : Windowed s t) {d : DomainId} (zero : (s.compliance.get d).above = 0) :
    (t.compliance.get d).above = 0 := by
  rcases h.2 d with same | settles
  · rw [same, zero]
  · rw [settles, Compliance.settling]
    cases state : (s.compliance.get d).state <;> simp [zero]

/-- What the compliance of a domain keeps under offers, the effects of a domain record keep without new judging fields. -/
theorem configureDomain_compliance {P : PerDomain Compliance → Prop}
    (window : ∀ u v, Windowed u v → P u.compliance → P v.compliance)
    (zero : r.sameJudging (s.domains.get d) = false → ∀ u, P u.compliance → P (zeroCounts d u).compliance)
    (before : P s.compliance) : P (configureDomain d r s).compliance := by
  by_cases same : r = s.domains.get d
  · rw [configureDomain, if_pos same]
    exact before
  · rw [configureDomain_changed same, (endEvent_ended _).same State.compliance fun _ => rfl]
    refine inAnyOrder_keeps (fun u => P u.compliance) (fun _ _ h => h) _ (domainEffects_keep ?_ ?_ ?_ zero) _ before
    · exact fun _ u => window _ _ (settleAccount_windowed d _ u)
    · exact fun _ u => window _ _ (recomputeShares_windowed u)
    · exact fun _ u => window _ _ (resolve_windowed d u)

/-- Changed judging fields make both counts 0 (R124). -/
theorem configureDomain_zeroes (changed : r.sameJudging (s.domains.get d) = false) :
    let c := (configureDomain d r s).compliance.get d
    c.above = 0 ∧ c.below = 0 := by
  have other : r ≠ s.domains.get d := by
    rintro rfl
    simp [DomainRecord.sameJudging] at changed
  have window : ∀ u v : State, Windowed u v → (u.compliance.get d).above = 0 ∧ (u.compliance.get d).below = 0 →
      (v.compliance.get d).above = 0 ∧ (v.compliance.get d).below = 0 := fun u v h zero =>
    ⟨h.above_zero zero.1, (h.below d).trans zero.2⟩
  have zeroes : ∀ u, ((zeroCounts d u).compliance.get d).above = 0 ∧ ((zeroCounts d u).compliance.get d).below = 0 :=
    fun u => by simp [zeroCounts, setCompliance]
  dsimp only
  rw [configureDomain_changed other, (endEvent_ended _).same State.compliance fun _ => rfl]
  refine domainEffects_bring (P := fun u => (u.compliance.get d).above = 0 ∧ (u.compliance.get d).below = 0)
    (zeroCounts d) ?_ (fun _ _ h => h) zeroes (domainEffects_keep ?_ ?_ ?_ fun _ u _ => zeroes u) _
  · rw [domainEffects, changed]
    exact .tail _ (.tail _ (.tail _ (.head _)))
  · exact fun _ u => window _ _ (settleAccount_windowed d _ u)
  · exact fun _ u => window _ _ (recomputeShares_windowed u)
  · exact fun _ u => window _ _ (resolve_windowed d u)

/-- Another settle time has no effect (R114). -/
theorem configureDomain_settleTime (only : r = { s.domains.get d with settleTime := r.settleTime }) :
    (configureDomain d r s).compliance = s.compliance := by
  by_cases same : r = s.domains.get d
  · rw [configureDomain, if_pos same]
  rw [configureDomain_changed same, (endEvent_ended _).same State.compliance fun _ => rfl]
  refine inAnyOrder_keeps (fun u => u.compliance = s.compliance) (fun _ _ h => h) _ (domainEffects_keep
    (fun changed => absurd (congrArg DomainRecord.recover only) changed) (fun changed => ?_)
    (fun changed => absurd (congrArg DomainRecord.lmin only) changed) fun changed => ?_) _ rfl
  · rw [only] at changed
    simp [DomainRecord.sameArbitration] at changed
  · rw [only] at changed
    simp [DomainRecord.sameJudging] at changed

end

/-- Settles O32: the stored record, and each effect where its fields change. -/
theorem setDomainStoresTheRecord : Obligations.SetDomainStoresTheRecord := by
  intro body d r s running mode shape x old a settle new invalid threshold state judged
  have taken : ∀ {t reply}, ownSetDomain ⟨d.number, r⟩ s = (t, reply) → x = .next (answer .platform .setDomain reply t) :=
    fun own => exec_served (kind := .setDomain) running (admitted_safe rfl mode) (served_eq_some.mpr ⟨_, shape, own⟩)
  have clamped : clampNat 0 2000 r.settleTime = settle := by rw [clampNat_eq _ _ _ (by decide), Nat.zero_max]
  have own : ownSetDomain ⟨d.number, r⟩ s =
      if recordValid r (s.profile.get d) then
        (configureDomain d new s, .taken (settle != r.settleTime) (leBytes 2 settle))
      else (s, .bare .invalid) := by
    rw [ownSetDomain, DomainId.ofNumber_number]
    simp only [clamped]
    rfl
  refine ⟨fun bad => ?_, fun good => ?_⟩
  · rw [if_neg fun h => (recordValid_iff _ _).mp h bad] at own
    exact taken own
  rw [if_pos ((recordValid_iff _ _).mpr good)] at own
  have judging : new.sameJudging old = false ↔ judged := by
    simp only [DomainRecord.sameJudging, Bool.and_eq_false_iff, beq_eq_false_iff_ne, judged, or_assoc]
    rfl
  refine ⟨configureDomain d new s, (taken own).trans (by rw [answer_taken]; rfl), fun same => if_pos same,
    configureDomain_domains d new s, configureDomain_accounts d new s, fun changed => configureDomain_allocates ?_,
    fun changed => configureDomain_resolves (d := d) (r := new) changed,
    fun changed => configureDomain_zeroes (judging.mpr changed), fun stays => ?_, fun only => ?_, fun d' => ?_, ?_, ?_⟩
  · simp only [DomainRecord.sameArbitration, Bool.and_eq_false_iff, beq_eq_false_iff_ne, or_assoc]
    exact changed
  · exact configureDomain_compliance (P := fun v => (v.get d).below = (s.compliance.get d).below)
      (fun u v h before => (h.below d).trans before) (fun changed => absurd (judging.mp changed) stays) rfl
  · exact configureDomain_settleTime (congrArg (fun v : DomainRecord => { v with settleTime := settle }) only)
  · refine configureDomain_compliance (P := fun v => (v.get d').state = (s.compliance.get d').state)
      (fun u v h before => (h.state d').trans before) (fun _ u before => ?_) rfl
    have zeroed : ({ u.compliance.get d with above := 0, below := 0 } : Compliance).state = (u.compliance.get d).state := rfl
    exact (PerDomain.apply_get_set (f := Compliance.state) zeroed d').trans before
  · exact configureDomain_same State.thermal d new s (fun _ _ => rfl) (fun _ _ => rfl) (fun _ => rfl) fun _ => rfl
  · exact configureDomain_same (fun u => { u with domains := s.domains }.withoutChain) d new s (fun _ _ => rfl)
      (fun _ _ => rfl) (fun _ => rfl) fun _ => rfl

end Sys2Proof.Machine

/-! # Temperature channels: the end of a conversion and SET_CHANNEL (R5, R6, R8 to R14) -/

namespace Sys2Proof.Machine

open Sys2Proof

/-! ## Records that a changed source leaves -/

section

variable {p : FaultKind → Nat → Prop} (trips : ∀ n, ¬p .zoneTrip n) (blinds : ∀ n, ¬p .zoneBlind n)

include trips blinds

theorem followSources_untouched (z : ZoneId) (s : State) : Untouched p s (followSources z s) := by
  unfold followSources
  dsimp only
  split
  · exact .of_faults rfl
  · split
    · exact Untouched.trans (t := setZoneRecord z _ s) (.of_faults rfl) (occurFatal_untouched trips (blinds _) _ _)
    · exact Untouched.trans (t := setZoneRecord z _ s) (.of_faults rfl) (endCondition_untouched (blinds _) _)

theorem sourcesChanged_untouched (stuck : ∀ n, ¬p .lineStuck n) (s : State) : Untouched p s (sourcesChanged s) := by
  refine Untouched.trans (Untouched.inAnyOrder ?_ s) (endEventWith_untouched stuck none _)
  simp only [List.mem_cons, List.not_mem_nil, or_false]
  rintro f (rfl | rfl | rfl | rfl) u <;> exact followSources_untouched trips blinds _ u

end

/-! ## The end of a conversion (R5, R6, R8 to R10) -/

variable {s t u : State}

/-- The head that is taken is that of the queue in front, with the configuration of its channel. -/
theorem TakesHead.congr (h : TakesHead u t) (queue : u.queue = s.queue)
    (cfg : ∀ c, (u.temps.get c).cfg = (s.temps.get c).cfg) : TakesHead s t := by
  simpa only [TakesHead, queue, cfg] using h

/-- What a record changed at the end of a conversion leaves: the next head taken, and the record; beyond it something
only where the channel enters or leaves FAILED. -/
theorem startConversion_changeTemp {c : TempId} {next : TempChannel} (cfg : next.cfg = (s.temps.get c).cfg) :
    let t := startConversion (changeTemp c (s.temps.get c) next { s with converter := none })
    TakesHead s t ∧ t.temps = s.temps.set c next ∧
      (((s.temps.get c).state = .failed ↔ next.state = .failed) →
        { t with temps := s.temps, queue := s.queue, converter := s.converter } = s) ∧
      { t with temps := s.temps, queue := s.queue, converter := s.converter }.withoutEvent = s.withoutEvent := by
  intro t
  have started := fun {α : Type} (f : State → α) blind => startConversion_same f blind
    (changeTemp c (s.temps.get c) next { s with converter := none })
  have temps := changeTemp_temps c (s.temps.get c) next { s with converter := none }
  refine ⟨(startConversion_takesHead _ (changeTemp_converter _ _ _ _)).congr (changeTemp_queue _ _ _ _) fun c' => ?_,
    (started State.temps fun _ _ _ => rfl).trans temps, fun quiet => ?_, ?_⟩
  · rw [temps]
    exact PerTemp.apply_get_set (f := TempChannel.cfg) cfg c'
  · refine (started (fun u => { u with temps := s.temps, queue := s.queue, converter := s.converter })
      fun _ _ _ => rfl).trans ?_
    rw [changeTemp_quiet _ _ _ _ quiet]
    rfl
  · exact (started (fun u => { u with temps := s.temps, queue := s.queue, converter := s.converter }.withoutEvent)
      fun _ _ _ => rfl).trans ((changeTemp_evented _ _ _ _).same
        (fun u => { u with temps := s.temps, queue := s.queue, converter := s.converter }.withoutEvent) fun _ => rfl)

/-- A channel that enters FAILED leaves TCH_FAILED in a first record with its first bad indication (R10). -/
theorem changeTemp_firstRecord {c : TempId} {v next : TempChannel} (was : v.state ≠ .failed)
    (fails : next.state = .failed) (u : State) :
    FirstRecord .tchFailed c.number .warning (next.firstBad.map fun b => (b.code : Int)) u
      (startConversion (changeTemp c v next u)) := by
  have enters : changeTemp c v next u = sourcesChanged
      (occur .tchFailed c.number (next.firstBad.map fun b => (b.code : Int)) (setTempRecord c next u)) :=
    if_pos ⟨was, fails⟩
  rw [enters]
  exact FirstRecord.of_occur (u := setTempRecord c next u) rfl ⟨rfl, rfl⟩
    ((sourcesChanged_untouched (fun _ => by decide) (fun _ => by decide) (fun _ => by decide) _).trans
      (.of_faults (startConversion_same State.faults (fun _ _ _ => rfl) _)))

theorem FirstRecord.of_value {kind : FaultKind} {n : Nat} {severity : Severity} {v w : Option Int}
    (h : FirstRecord kind n severity v s t) (same : w = v) : FirstRecord kind n severity w s t := same ▸ h

theorem exec_conversionEnd {j : Conversion} (result : RawResult) (running : s.inReset = false)
    (busy : s.converter = some j) (due : j.timer.due = true) :
    exec (.conversionEnd result) s = .next
      (startConversion (if j.voided then { s with converter := none }
        else handleOutcome j result { s with converter := none })) := by
  simp only [exec, execConversionEnd, outsideReset_running _ s running, busy, await_of_due j.timer s due]

/-- The results that are out of range, with their indications (R9). -/
theorem rangeTest_outOfRange {result : RawResult} {indication : BadIndication}
    (bad : (result = .openPair ∧ indication = .openPair) ∨ (result = .shortPair ∧ indication = .shortPair) ∨
      (∃ x, result = .degrees x ∧ 1500 < x ∧ indication = .high) ∨
      (∃ x, result = .degrees x ∧ x < -400 ∧ indication = .low)) : rangeTest result = .outOfRange indication := by
  rcases bad with ⟨rfl, rfl⟩ | ⟨rfl, rfl⟩ | ⟨x, rfl, high, rfl⟩ | ⟨x, rfl, low, rfl⟩
  · rfl
  · rfl
  · exact if_pos high
  · have notHigh : ¬x > Config.temperatureMax := by
      rw [Config.temperatureMax]
      omega
    exact (if_neg notHigh).trans (if_pos low)

theorem rangeTest_reading {x : Int} (least : -400 ≤ x) (most : x ≤ 1500) : rangeTest (.degrees x) = .reading x :=
  (if_neg (Int.not_lt.mpr most)).trans (if_neg (Int.not_lt.mpr least))

/-- The record after a bad outcome (R9). -/
theorem TempChannel.bad_eq {v : TempChannel} (enabled : v.state ≠ .disabled) (indication : BadIndication) :
    v.bad indication =
      { v with
        badRun := min 8 (v.badRun + 1), firstBad := if v.badRun = 0 then some indication else v.firstBad
        state := badState v.state (min 8 (v.badRun + 1)) v.cfg.holdCount } := by
  rw [TempChannel.bad, stateAfterBad_eq enabled]

/-- A failed channel stays failed under bad outcomes. -/
theorem badState_failed {old : ChannelState} (failed : old = .failed) (run hold : Nat) :
    badState old run hold = .failed := if_pos (.inl failed)

/-- Settles O15: the outcome at its channel, the next head, and TCH_FAILED where the channel enters FAILED. -/
theorem conversionEndsReachTheirChannel : Obligations.ConversionEndsReachTheirChannel := by
  refine ⟨fun j x s running busy due counts least most => ?_, fun j result indication s running busy due counts enabled
    bad => ?_, fun j result s running busy due voided => ?_⟩
  · intro v
    obtain ⟨head, temps, quiet, frame⟩ := startConversion_changeTemp (s := s) (c := j.channel)
      (next := v.good x j.offset s.uptime) rfl
    have good : v.good x j.offset s.uptime =
        { v with
          value := some (max (-400) (min 1500 (x + j.offset))), state := .valid, badRun := 0, firstBad := none
          lastGood := some s.uptime } := by
      rw [TempChannel.good, clampInt_eq _ _ _ (by decide)]
    refine ⟨_, (exec_conversionEnd _ running busy due).trans ?_, head, temps.trans (by rw [good]), fun was => quiet ?_,
      frame⟩
    · simp only [counts, Bool.false_eq_true, if_false, handleOutcome, rangeTest_reading least most]
      rfl
    · exact iff_of_false was (by simp [good])
  · intro v run state first
    have record := TempChannel.bad_eq enabled indication
    obtain ⟨head, temps, quiet, frame⟩ := startConversion_changeTemp (s := s) (c := j.channel)
      (next := v.bad indication) rfl
    refine ⟨_, (exec_conversionEnd _ running busy due).trans ?_, head, temps.trans (by rw [record]), fun was fails => ?_,
      fun same => quiet ?_, frame⟩
    · simp only [counts, Bool.false_eq_true, if_false, handleOutcome, rangeTest_outOfRange bad]
      rfl
    · have entered := changeTemp_firstRecord (c := j.channel) (next := v.bad indication) was (by rw [record]; exact fails)
        { s with converter := none }
      refine FirstRecord.of_value (s := s) entered (Eq.trans ?_ (congrArg (Option.map _) (by rw [record])))
      exact congrFun (congrArg Option.map (funext fun b => by cases b <;> rfl)) first
    · rw [record]
      rcases same with failed | unfailed
      · exact iff_of_true failed (badState_failed failed _ _)
      · refine iff_of_false (fun failed => unfailed (badState_failed failed _ _)) unfailed
  · refine ⟨_, exec_conversionEnd result running busy due, ?_, ?_⟩
    · rw [voided]
      exact (startConversion_takesHead _ rfl).congr rfl fun _ => rfl
    · rw [voided]
      exact startConversion_same (fun u => { u with queue := s.queue, converter := s.converter }) (fun _ _ _ => rfl) _

/-! ## SET_CHANNEL (R11 to R14) -/

theorem clampStep_eq (x : Nat) : clampStep 10 10 2550 x = max 10 (min 2550 (10 * (x / 10))) := by
  rw [clampStep, clampNat_eq _ _ _ (by decide)]
  omega

theorem usedByZone_iff (c : TempId) (s : State) :
    usedByZone c s = true ↔
      ∃ z, (s.zones.get z).cfg.enabled = true ∧ ∃ src ∈ (s.zones.get z).cfg.sources, src.channel = c := by
  rw [usedByZone, List.any_eq_true]
  refine exists_congr fun z => ?_
  simp only [ZoneId.mem_all, true_and, Bool.and_eq_true, List.any_eq_true, beq_iff_eq]

theorem channelValid_iff (c : TempId) (cfg : ChannelConfig) (s : State) :
    channelValid c cfg s = true ↔
      ¬(cfg.offset < -100 ∨ 100 < cfg.offset ∨ 7 < cfg.holdCount ∨ cfg.failValue < -400 ∨ 1500 < cfg.failValue ∨
        ((s.temps.get c).cfg.enabled = true ∧ cfg.enabled = false ∧
          ∃ z, (s.zones.get z).cfg.enabled = true ∧ ∃ src ∈ (s.zones.get z).cfg.sources, src.channel = c)) := by
  have used : (!((s.temps.get c).cfg.enabled && !cfg.enabled && usedByZone c s)) = true ↔
      ¬((s.temps.get c).cfg.enabled = true ∧ cfg.enabled = false ∧
        ∃ z, (s.zones.get z).cfg.enabled = true ∧ ∃ src ∈ (s.zones.get z).cfg.sources, src.channel = c) := by
    rw [← usedByZone_iff]
    simp only [Bool.not_eq_true', ← Bool.not_eq_true, Bool.and_eq_true, and_assoc]
  simp only [channelValid, Bool.and_eq_true, used, decide_eq_true_eq, Config.temperatureMin, Config.temperatureMax,
    not_or, Int.not_lt, Nat.not_lt, and_assoc]

/-- The record of an enabled channel under a changed configuration (R12 to R14). -/
def TempChannel.reconfigured (v : TempChannel) (cfg : ChannelConfig) : TempChannel :=
  if cfg.enabled = false then { v.emptied .disabled with cfg := cfg, timer := none }
  else if cfg.kind = v.cfg.kind then { v with cfg := cfg, timer := some (Timer.start cfg.interval) }
  else { v.emptied .starting with cfg := cfg, timer := some (Timer.start cfg.interval) }

theorem TempChannel.reconfigured_unfailed {v : TempChannel} (unfailed : v.state ≠ .failed) (cfg : ChannelConfig) :
    (v.reconfigured cfg).state ≠ .failed := by
  unfold reconfigured
  split
  · simp [emptied]
  · split
    · exact unfailed
    · simp [emptied]

/-- A changed configuration of an enabled channel voids its conversion, and takes a disabled one from the queue (R12 to
R14). -/
theorem configureChannel_enabled {c : TempId} {cfg : ChannelConfig} (changed : cfg ≠ (s.temps.get c).cfg)
    (enabled : (s.temps.get c).cfg.enabled = true) :
    configureChannel c cfg s = changeTemp c (s.temps.get c) ((s.temps.get c).reconfigured cfg)
      { s with
        converter := s.converter.map fun j => if j.channel = c then { j with voided := true } else j
        queue := if cfg.enabled then s.queue else s.queue.filter fun q => q ≠ c } := by
  have filtered : (s.queue.filter fun q => q != c) = s.queue.filter fun q => q ≠ c := by
    refine List.filter_congr fun q _ => ?_
    by_cases own : q = c <;> simp [own]
  unfold configureChannel
  dsimp only
  rw [if_neg changed, enabled, TempChannel.reconfigured]
  cases stays : cfg.enabled with
  | false =>
    simp only [if_true, Bool.false_eq_true, if_false, ← filtered]
    rfl
  | true =>
    simp only [Bool.true_eq_false, if_true, if_false]
    by_cases kind : cfg.kind = (s.temps.get c).cfg.kind
    · rw [if_pos kind, if_pos kind]
      rfl
    · rw [if_neg kind, if_neg kind]
      rfl

/-- Settles O16: the checks in their order, and what each change of the configuration makes of the channel. -/
theorem setChannelConfiguresTheChannel : Obligations.SetChannelConfiguresTheChannel := by
  intro body r c s running shape named v e interval cfg barred invalid
  have taken : ∀ {t reply}, ownSetChannel r s = (t, reply) → e = .next (answer .platform .setChannel reply t) :=
    fun own => exec_served (kind := .setChannel) running (admitted_platform rfl) (served_eq_some.mpr ⟨r, shape, own⟩)
  have own : ownSetChannel r s =
      if barred then (s, .bare .state)
      else if !channelValid c r.cfg s then (s, .bare .invalid)
      else (configureChannel c cfg s, .taken (interval != r.cfg.interval) (leBytes 2 interval)) := by
    rw [ownSetChannel, named, TempId.ofNumber_number]
    simp only [clampStep_eq]
    rfl
  have valid : (!channelValid c r.cfg s) = true ↔ invalid := by
    rw [Bool.not_eq_true', ← Bool.not_eq_true, channelValid_iff, not_not]
  refine ⟨fun bad => ?_, fun allowed bad => ?_, fun allowed good => ?_⟩
  · rw [if_pos bad] at own
    exact taken own
  · rw [if_neg allowed, if_pos (valid.mpr bad)] at own
    exact taken own
  rw [if_neg allowed, if_neg fun h => good (valid.mp h)] at own
  refine ⟨configureChannel c cfg s, (taken own).trans (by rw [answer_taken]; rfl), fun same => if_pos same,
    fun changed off stays => ?_, fun off on => ?_, fun changed on => ?_⟩
  · unfold configureChannel
    dsimp only
    rw [if_neg changed, off, stays]
    rfl
  · have changed : cfg ≠ v.cfg := fun same => by
      rw [same, off] at on
      cases on
    unfold configureChannel
    dsimp only
    rw [if_neg changed, off, on]
    rfl
  · rw [configureChannel_enabled changed on]
    refine ⟨changeTemp_converter _ _ _ _, changeTemp_queue _ _ _ _, changeTemp_temps _ _ _ _, fun unfailed => ?_, ?_⟩
    · rw [changeTemp_quiet _ _ _ _ (iff_of_false unfailed (TempChannel.reconfigured_unfailed unfailed cfg))]
      rfl
    · exact (changeTemp_evented _ _ _ _).same
        (fun u => { u with temps := s.temps, queue := s.queue, converter := s.converter }.withoutEvent) fun _ => rfl

end Sys2Proof.Machine

/-! # Resolutions and grants (R116 to R118, R122) -/

namespace Sys2Proof.Machine

open Sys2Proof

/-! ## What a resolution finds (R116) -/

/-- The best of the contributors in their order: each one in front of it is larger, and none behind it is smaller. -/
def Leads (order : List (Owner × Option Nat)) (best : Owner × Nat) : Prop :=
  ∃ before after, order = before ++ (best.1, some best.2) :: after ∧
    (∀ x ∈ before, ∀ v, x.2 = some v → best.2 < v) ∧ ∀ x ∈ after, ∀ v, x.2 = some v → best.2 ≤ v

theorem Leads.smaller {order : List (Owner × Option Nat)} {best : Owner × Nat} (h : Leads order best) (owner : Owner)
    (value : Option Nat) : Leads (order ++ [(owner, value)]) (smaller best owner value) := by
  obtain ⟨before, after, rfl, larger, least⟩ := h
  have stays : (∀ v, value = some v → best.2 ≤ v) →
      Leads (before ++ (best.1, some best.2) :: after ++ [(owner, value)]) best := by
    intro behind
    refine ⟨before, after ++ [(owner, value)], by simp, larger, fun x inside v held => ?_⟩
    rcases List.mem_append.mp inside with inside | inside
    · exact least x inside v held
    · rw [List.mem_singleton.mp inside] at held
      exact behind v held
  cases value with
  | none => exact stays fun _ held => by cases held
  | some v =>
    by_cases less : v < best.2
    · rw [Machine.smaller, if_pos less]
      refine ⟨before ++ (best.1, some best.2) :: after, [], rfl, fun x inside w held => ?_, fun _ inside => by cases inside⟩
      rcases List.mem_append.mp inside with inside | inside
      · exact Nat.lt_trans less (larger x inside w held)
      · rcases List.mem_cons.mp inside with rfl | inside
        · exact Option.some.inj held ▸ less
        · exact Nat.lt_of_lt_of_le less (least x inside w held)
    · rw [Machine.smaller, if_neg less]
      refine stays fun w held => ?_
      rw [← Option.some.inj held]
      exact Nat.not_lt.mp less

/-- The contributors in their order (R116). -/
theorem Contributors.least_leads (c : Contributors) :
    Leads [(if c.percent < 100 then .thermal else .profile, some c.allowance), (.supply, c.share), (.capP, c.capP),
      (.capS, c.capS)] c.least := by
  have first : ∀ owner, Leads [(owner, some c.allowance)] (owner, c.allowance) := fun owner =>
    ⟨[], [], rfl, by simp, by simp⟩
  exact (((first _).smaller .supply c.share).smaller .capP c.capP).smaller .capS c.capS

/-- R116 in full: the smallest contributor, the first of those as small, raised to Lmin. -/
theorem resolution_finds (c : Contributors) (lmin : Nat) :
    let r := resolution c lmin
    let atMost := fun m v : Option Nat => ∀ a b, m = some a → v = some b → a ≤ b
    let below := fun m v : Option Nat => ∀ a b, m = some a → v = some b → a < b
    let values := [some c.allowance, c.share, c.capP, c.capS]
    let winner := match r.owner with
      | .thermal => some c.allowance
      | .profile => some c.allowance
      | .supply => c.share
      | .capP => c.capP
      | .capS => c.capS
    let before := match r.owner with
      | .thermal => []
      | .profile => []
      | .supply => [some c.allowance]
      | .capP => [some c.allowance, c.share]
      | .capS => [some c.allowance, c.share, c.capP]
    ∃ m, winner = some m ∧ (∀ v ∈ values, atMost winner v) ∧ (∀ v ∈ before, below winner v) ∧
      (r.owner = .thermal → c.percent < 100) ∧ (r.owner = .profile → 100 ≤ c.percent) ∧
      r.limit = max lmin m ∧ r.floorApplied = decide (m < lmin) := by
  intro r atMost below
  have leads := c.least_leads
  have found : r = ⟨max lmin c.least.2, c.least.1, decide (c.least.2 < lmin)⟩ := rfl
  rw [found]
  generalize c.least = best at leads
  obtain ⟨owner, m⟩ := best
  obtain ⟨before, after, order, larger, least⟩ := leads
  simp only [atMost, below]
  rcases before with _ | ⟨x, _ | ⟨y, _ | ⟨z, rest⟩⟩⟩ <;>
    simp only [List.nil_append, List.cons_append, List.cons.injEq, Prod.mk.injEq] at order
  · obtain ⟨⟨allowance, value⟩, rfl⟩ := order
    by_cases percent : c.percent < 100
    · rw [if_pos percent] at allowance
      subst allowance
      refine ⟨m, value, ?_, by simp, by simp [percent], by simp, rfl, rfl⟩
      simp only [List.mem_cons, List.not_mem_nil, or_false, forall_eq_or_imp, forall_eq] at least ⊢
      grind
    · rw [if_neg percent] at allowance
      subst allowance
      refine ⟨m, value, ?_, by simp, by simp, by simpa using percent, rfl, rfl⟩
      simp only [List.mem_cons, List.not_mem_nil, or_false, forall_eq_or_imp, forall_eq] at least ⊢
      grind
  · obtain ⟨rfl, ⟨rfl, value⟩, rfl⟩ := order
    simp only [List.mem_cons, List.not_mem_nil, or_false, forall_eq_or_imp, forall_eq] at larger least
    refine ⟨m, value, ?_, ?_, by simp, by simp, rfl, rfl⟩ <;>
      simp only [List.mem_cons, List.not_mem_nil, or_false, forall_eq_or_imp, forall_eq]
    · grind
    · grind
  · obtain ⟨rfl, rfl, ⟨rfl, value⟩, rfl⟩ := order
    simp only [List.mem_cons, List.not_mem_nil, or_false, forall_eq_or_imp, forall_eq] at larger least
    refine ⟨m, value, ?_, ?_, by simp, by simp, rfl, rfl⟩ <;>
      simp only [List.mem_cons, List.not_mem_nil, or_false, forall_eq_or_imp, forall_eq]
    · grind
    · grind
  · obtain ⟨rfl, rfl, rfl, order⟩ := order
    rcases rest with _ | ⟨w, rest⟩ <;> simp at order
    obtain ⟨⟨rfl, value⟩, rfl⟩ := order
    simp only [List.mem_cons, List.not_mem_nil, or_false, forall_eq_or_imp, forall_eq] at larger least
    refine ⟨m, value, ?_, ?_, by simp, by simp, rfl, rfl⟩ <;>
      simp only [List.mem_cons, List.not_mem_nil, or_false, forall_eq_or_imp, forall_eq]
    · grind
    · grind

/-! ## What a resolution records and starts (R117, R118, R122) -/

theorem Grant.agrees_iff (g : Grant) (r : Resolution) :
    g.agrees r = true ↔ g.limit = r.limit ∧ g.owner = r.owner ∧ g.floorApplied = r.floorApplied := by
  simp only [agrees, Bool.and_eq_true, beq_iff_eq, and_assoc]

/-- Only a resolution that lowers the limit starts a settle window, and with a settle time of 0 none (R122). -/
theorem resolve_compliance {d : DomainId} {s : State}
    (other : (s.grants.get d).agrees (resolution (s.contributors.get d) (s.domains.get d).lmin) = false) :
    let c := s.compliance.get d
    let time := (s.domains.get d).settleTime
    (resolve d s).compliance =
      if (resolution (s.contributors.get d) (s.domains.get d).lmin).limit < (s.grants.get d).limit ∧ time ≠ 0 then
        s.compliance.set d
          { c with settle := some (Timer.start time), above := if c.state = .normal then 0 else c.above }
      else s.compliance := by
  intro c time
  have settling : c.settling time =
      { c with settle := some (Timer.start time), above := if c.state = .normal then 0 else c.above } := by
    cases state : c.state <;> simp [Compliance.settling, state]
  unfold resolve
  simp only [other, Bool.false_eq_true, if_false]
  split
  · rename_i lowers
    rw [startSettle_compliance, ← settling]
    change (if time = 0 then s.compliance else s.compliance.set d (c.settling time)) = _
    by_cases idle : time = 0
    · rw [if_pos idle, if_neg fun h => h.2 idle]
    · rw [if_neg idle, if_pos ⟨lowers, idle⟩]
  · rename_i keeps
    rw [if_neg fun h => keeps h.1]
    rfl

/-- A resolution that finds something else raises GRANT, and writes grants, compliance and notices (R117). -/
theorem resolve_raises {d : DomainId} {s : State}
    (other : (s.grants.get d).agrees (resolution (s.contributors.get d) (s.domains.get d).lmin) = false) :
    Raised .grant (resolve d s) ∧
      { resolve d s with grants := s.grants, compliance := s.compliance, notices := s.notices } = s := by
  unfold resolve
  simp only [other, Bool.false_eq_true, if_false]
  split
  · unfold startSettle
    dsimp only
    split <;> exact ⟨raised_raise .grant { s with grants := _ }, rfl⟩
  · exact ⟨raised_raise .grant { s with grants := _ }, rfl⟩

/-! ## The range of a grant -/

/-- The smallest contributor is at most the allowance. -/
theorem Contributors.least_le_allowance (c : Contributors) : c.least.2 ≤ c.allowance := by
  have step : ∀ best owner value, (Machine.smaller best owner value).2 ≤ best.2 := by
    intro best owner value
    cases value with
    | none => exact Nat.le_refl _
    | some v =>
      rw [Machine.smaller]
      split
      · exact Nat.le_of_lt (by assumption)
      · exact Nat.le_refl _
  exact (step _ _ _).trans ((step _ _ _).trans (step _ _ _))

/-- The allowance of a safe account is at most the burst limit of its entry. -/
theorem Account.Safe.allowance_le {a : Account} {e : Entry} {percent recover : Nat} (safe : a.Safe e percent recover)
    (full : percent ≤ 100) (ordered : e.s ≤ e.b) : a.allowance ≤ e.b := by
  obtain ⟨-, -, -, -, -, -, sEff, bEff, -, burst, sustained⟩ := safe
  have share : ∀ limit : Nat, limit * percent / 100 ≤ limit := fun limit =>
    Nat.div_le_of_le_mul ((Nat.mul_le_mul_left limit full).trans (Nat.mul_comm limit 100).le)
  cases state : a.state with
  | burst =>
    rw [(burst state).2, bEff]
    exact share _
  | sustained =>
    rw [(sustained state).2, sEff]
    exact (share _).trans ordered

/-- Settles O34: what a resolution finds, what it records and starts, and the range of a safe grant. -/
theorem grantsFollowTheContributors : Obligations.GrantsFollowTheContributors := by
  refine ⟨resolution_finds, fun d s => ?_, fun s entries zones accounts grants d => ?_, ?_⟩
  · intro r g c time t same
    have agrees : g.agrees r = true ↔ same := g.agrees_iff r
    refine ⟨fun h => resolve_same d s (agrees.mpr h), fun h => ?_⟩
    have other : g.agrees r = false := by
      rw [← Bool.not_eq_true, agrees]
      exact h
    obtain ⟨raised, frame⟩ := resolve_raises other
    exact ⟨resolve_grants d s other, raised, resolve_compliance other, frame⟩
  · obtain ⟨-, ordered, -, -, lmin⟩ := entries d s.column
    obtain ⟨copied, agrees⟩ := grants.2 d
    obtain ⟨limit, -, -⟩ := (Grant.agrees_iff _ _).mp agrees
    have percent : s.thermal.get d ≤ 100 := by
      rw [zones.2 d]
      exact (thermalPercent_le s.zones d).1
    have allowance := (accounts d).allowance_le percent ordered
    have smallest := (s.contributors.get d).least_le_allowance
    rw [show (s.contributors.get d).allowance = (s.accounts.get d).allowance by rw [copied]] at smallest
    rw [limit, resolution]
    exact ⟨Nat.le_max_left _ _, Nat.max_le.mpr ⟨lmin.trans ordered, smallest.trans allowance⟩⟩
  · exact ⟨rfl, fun d => (grantsSafe_iff _).mp grantsSafe_reset (.grant d)⟩

end Sys2Proof.Machine

/-! # The update of a zone and SET_ZONE (R54 to R65, R68, R70 to R72) -/

namespace Sys2Proof.Machine

open Sys2Proof

/-! ## The ladder of an update (R58, R64, R65) -/

/-- A zone behind the ladder of an update; a first update makes the jump only (R58, R64). -/
def Zone.climbed (v : Zone) (first : Prop) [Decidable first] (limit estimate : Int) : Zone :=
  if first then v.jumped limit estimate else v.laddered limit estimate

/-- The ladder of an update stores the zone behind it, and leaves the other zones (R64). -/
theorem climb_zones {z : ZoneId} {s : State} {estimate : Int} (known : (s.zones.get z).estimate = some estimate)
    (first : Prop) [Decidable first] :
    (if first then ladderUp z s else ladderUpdate z s).zones =
      s.zones.set z ((s.zones.get z).climbed first (skinLimit z s) estimate) := by
  unfold Zone.climbed
  split
  · exact ladderUp_zones known
  · exact ladderUpdate_zones known

/-- A zone may descend from a step that its estimate has left by the hysteresis, held for the descent dwell (R64). -/
theorem mayDescend_iff (v : Zone) (limit estimate : Int) :
    mayDescend limit estimate v = true ↔
      v.position ≠ 0 ∧ v.cfg.descentDwell ≤ v.held ∧
        ∃ step, v.ladder[v.position - 1]? = some step ∧ estimate < limit - step.offset - v.cfg.hysteresis := by
  unfold mayDescend
  cases position : v.position with
  | zero => simp [stepAt]
  | succ k =>
    cases found : v.ladder[k]? with
    | none => simp [stepAt, found]
    | some step =>
      simp only [stepAt, Nat.succ_sub_one, found, Bool.and_eq_true, decide_eq_true_iff, enterThreshold,
        Option.some.injEq, exists_eq_left', ne_eq, Nat.succ_ne_zero, not_false_eq_true, true_and]
      exact and_comm.trans (and_congr_right fun _ => decide_eq_true_iff)

/-- What the ladder of an update makes of position, held count and percent (R58, R64, R65). -/
theorem Zone.climbed_spec {v : Zone} {first : Prop} [Decidable first] {limit estimate : Int} {top : Nat}
    (isTop : IsTop v.ladder limit estimate top) :
    let w := v.climbed first limit estimate
    let descends := ¬first ∧ v.position ≠ 0 ∧ v.cfg.descentDwell ≤ v.held ∧
      ∃ step, v.ladder[v.position - 1]? = some step ∧ estimate < limit - step.offset - v.cfg.hysteresis
    { w with position := v.position, held := v.held, percent := v.percent } = v ∧
      (v.position < top → w.position = top ∧ w.held = 0) ∧
      (¬v.position < top → descends → w.position = v.position - 1 ∧ w.held = 0) ∧
      (¬v.position < top → ¬descends →
        w.position = v.position ∧ w.held = if first then v.held else min 15 (v.held + 1)) ∧
      w.percent = (if w.position = v.position then v.percent
        else if w.position = 0 then 100 else (v.ladder[w.position - 1]?.map (·.percent)).getD 100) := by
  obtain rfl := isTop.unique (ladderTop_isTop limit estimate v.ladder)
  intro w descends
  have descent : descends ↔ ¬first ∧ mayDescend limit estimate v = true :=
    and_congr_right fun _ => (mayDescend_iff v limit estimate).symm
  rw [descent]
  simp only [w, Zone.climbed, Zone.jumped, Zone.laddered]
  by_cases above : v.position < ladderTop limit estimate v.ladder
  · have jumps := Nat.ne_of_gt above
    simp [above, jumps, percentAt_eq]
  by_cases start : first
  · simp [above, start]
  by_cases down : mayDescend limit estimate v = true
  · obtain ⟨raised, -⟩ := (mayDescend_iff v limit estimate).mp down
    have moves : v.position - 1 ≠ v.position := by omega
    simp [above, start, down, moves, percentAt_eq]
  · simp [above, start, down]

/-! ## Raw value, estimate and trip state (R57 to R59, R61) -/

theorem weightedSum_offered {consumer : TempId → Option Int} {value : TempId → Int} {sources : List Source}
    (offers : ∀ src ∈ sources, consumer src.channel = some (value src.channel)) :
    weightedSum consumer sources = some ((sources.map fun src => src.weight * value src.channel).sum) := by
  induction sources with
  | nil => rfl
  | cons src rest ih =>
    rw [weightedSum, offers src (.head _), ih fun other inside => offers other (.tail _ inside)]
    rfl

theorem weightedSum_none {consumer : TempId → Option Int} {sources : List Source}
    (silent : ∃ src ∈ sources, consumer src.channel = none) : weightedSum consumer sources = none := by
  obtain ⟨src, inside, none⟩ := silent
  induction sources with
  | nil => cases inside
  | cons first rest ih =>
    rcases List.mem_cons.mp inside with rfl | inside
    · rw [weightedSum, none]
    · rw [weightedSum, ih inside]
      cases consumer first.channel <;> rfl

theorem consumer_of_offers {v : TempChannel} {x : Int} (offers : Offers v x) : v.consumer = some x := by
  rcases offers with ⟨state | state, value⟩ | ⟨state, rfl⟩
  · simp only [TempChannel.consumer, state, value]
  · simp only [TempChannel.consumer, state, value]
  · simp only [TempChannel.consumer, state]

/-- A STARTING or DISABLED channel offers no consumer value. -/
theorem consumer_of_silent {v : TempChannel} (silent : v.state = .starting ∨ v.state = .disabled) :
    v.consumer = none := by
  rcases silent with state | state <;> simp only [TempChannel.consumer, state]

/-- A step toward the raw value moves by at least 1 where they differ (R59). -/
theorem stepMagnitude_eq (diff : Int) (alpha : Nat) :
    stepMagnitude diff alpha = max (min diff.natAbs 1) ((diff.natAbs * alpha + 128) / 256) := by
  unfold stepMagnitude
  dsimp only
  split
  · omega
  · rename_i other
    rw [not_and_or, not_not] at other
    omega

/-- The estimate that an update forms from its raw value (R58, R59). -/
def Zone.formed (v : Zone) (before raw : Int) : Int :=
  let diff := raw - before
  let moved : Int := (max (min diff.natAbs 1) ((diff.natAbs * v.cfg.alpha + 128) / 256) : Nat)
  if v.state = .starting then raw else if diff < 0 then before - moved else before + moved

/-- The trip state of a zone that updates its estimate (R58, R61). -/
def Zone.updatedState (v : Zone) (limit estimate : Int) : ZoneState :=
  let point := limit + v.cfg.tripMargin
  if v.state = .tripped then (if estimate < point - v.cfg.hysteresis then .active else .tripped)
  else if point ≤ estimate then .tripped else .active

section

variable {v : Zone} {before : Int}
  (runs : v.state = .starting ∨ ((v.state = .active ∨ v.state = .tripped) ∧ v.estimate = some before))

include runs

/-- An update gives the zone its estimate; a STARTING zone becomes ACTIVE (R58, R59). -/
theorem Zone.estimated_eq (raw : Int) :
    v.estimated raw =
      { v with
        estimate := some (v.formed before raw), state := if v.state = .starting then .active else v.state } := by
  rcases runs with start | ⟨state | state, known⟩
  · simp [Zone.estimated, Zone.formed, start]
  · simp [Zone.estimated, Zone.formed, state, known, filtered, stepMagnitude_eq]
  · simp [Zone.estimated, Zone.formed, state, known, filtered, stepMagnitude_eq]

/-- The estimate formed is checked against the trip point (R61). -/
theorem Zone.estimated_tripChecked (limit raw : Int) :
    (v.estimated raw).tripChecked limit (v.formed before raw) =
      { v with
        estimate := some (v.formed before raw), state := v.updatedState limit (v.formed before raw) } := by
  rw [Zone.estimated_eq runs]
  rcases runs with state | ⟨state | state, -⟩
  · simp [Zone.tripChecked, Zone.checkedState, Zone.updatedState, tripPoint, state]
  · simp [Zone.tripChecked, Zone.checkedState, Zone.updatedState, tripPoint, state]
  · simp [Zone.tripChecked, Zone.checkedState, Zone.updatedState, tripPoint, state]

end

/-! ## One update (R56 to R65, R68) -/

/-- An ACTIVE zone whose estimate reaches the trip point trips (R61, R62). -/
theorem tripCheck_trips {z : ZoneId} {s : State} {estimate : Int} (active : (s.zones.get z).state = .active)
    (known : (s.zones.get z).estimate = some estimate)
    (reached : tripPoint (skinLimit z s) (s.zones.get z).cfg.tripMargin ≤ estimate) :
    tripCheck z s = raise .trip (occur .zoneTrip z.number (some estimate)
      (setZoneRecord z { s.zones.get z with state := .tripped } s)) := by
  unfold tripCheck
  simp only [known, active, if_pos reached]

theorem ladderUpdate_untouched {p : FaultKind → Nat → Prop} (z : ZoneId) (s : State) :
    Untouched p s (ladderUpdate z s) := by
  unfold ladderUpdate
  dsimp only
  split
  · exact .refl p s
  · split
    · exact ladderUp_untouched z s
    · split <;> exact .of_faults rfl

section

variable {z : ZoneId} {s : State} {v : Zone} {before : Int}
  (runs : v.state = .starting ∨ ((v.state = .active ∨ v.state = .tripped) ∧ v.estimate = some before))
  (held : s.zones.get z = v)

include runs held

/-- An update stores the zone with estimate, trip state and ladder, and leaves the other zones. -/
theorem updateZone_zones (sum : Int) :
    let estimate := v.formed before (rawOf sum)
    let limit := skinLimit z s
    (updateZone z sum s).zones = s.zones.set z
      (({ v with estimate := some estimate, state := v.updatedState limit estimate } : Zone).climbed
        (v.state = .starting) limit estimate) := by
  intro estimate limit
  have known : (v.estimated (rawOf sum)).estimate = some estimate := by rw [Zone.estimated_eq runs]
  let formed := setZoneRecord z (v.estimated (rawOf sum)) s
  have record : formed.zones.get z = v.estimated (rawOf sum) := PerZone.get_set_self _ _ _
  have checked : (tripCheck z formed).zones = s.zones.set z
      { v with estimate := some estimate, state := v.updatedState limit estimate } := by
    rw [tripCheck_zones (record ▸ known), record, ← Zone.estimated_tripChecked runs]
    exact perZone_set_set _ _ _ _
  have limitKept : skinLimit z (tripCheck z formed) = limit :=
    (tripCheck_switched z formed).same (skinLimit z) fun _ => rfl
  have climbed := climb_zones (z := z) (s := tripCheck z formed) (estimate := estimate)
    (by rw [checked, PerZone.get_set_self]) (v.state = .starting)
  rw [updateZone, recomputeThermal_zones]
  simp only [held]
  rw [climbed, checked, limitKept, PerZone.get_set_self, perZone_set_set]

/-- A zone that an update trips gets a first ZONE_TRIP with the estimate, which stays to the end of the event (R62). -/
theorem updateZone_firstTrip {sum : Int} (armed : v.state ≠ .tripped)
    (trips : v.updatedState (skinLimit z s) (v.formed before (rawOf sum)) = .tripped) :
    FirstRecord .zoneTrip z.number .warning (some (v.formed before (rawOf sum))) s (endEvent (updateZone z sum s)) := by
  let formed := setZoneRecord z (v.estimated (rawOf sum)) s
  have record : formed.zones.get z = v.estimated (rawOf sum) := PerZone.get_set_self _ _ _
  have reached : tripPoint (skinLimit z s) v.cfg.tripMargin ≤ v.formed before (rawOf sum) := by
    rw [Zone.updatedState, if_neg armed] at trips
    by_contra below
    rw [if_neg (show ¬skinLimit z s + v.cfg.tripMargin ≤ _ from below)] at trips
    cases trips
  have active : (formed.zones.get z).state = .active := by
    rw [record, Zone.estimated_eq runs]
    rcases runs with start | ⟨state | state, -⟩
    · exact if_pos start
    · simp [state]
    · exact absurd state armed
  have checked := tripCheck_trips active (by rw [record, Zone.estimated_eq runs])
    (by rw [record, Zone.estimated_eq runs]; exact reached)
  refine FirstRecord.of_occur (u := setZoneRecord z { formed.zones.get z with state := .tripped } formed) rfl
    ⟨rfl, rfl⟩ ?_
  rw [updateZone, held]
  refine Untouched.trans ?_ (endEventWith_untouched (fun _ => by decide) none _)
  refine Untouched.trans ?_ (recomputeThermal_limited _).untouched
  refine Untouched.trans (t := tripCheck z formed) (.of_faults (by rw [checked]; rfl)) ?_
  split
  · exact ladderUp_untouched z _
  · exact ladderUpdate_untouched z _

end

/-- The percents after an update are the least of the zones' (R68). -/
theorem recomputed_leastPercent (s : State) (d : DomainId) :
    LeastPercent (endEvent (recomputeThermal s)).zones d ((endEvent (recomputeThermal s)).thermal.get d) := by
  have percent : (endEvent (recomputeThermal s)).thermal.get d = thermalPercent s.zones d :=
    ((endEvent_ended _).same (fun u => u.thermal.get d) fun _ => rfl).trans (recomputeThermal_thermal s d)
  have zones : (endEvent (recomputeThermal s)).zones = s.zones :=
    ((endEvent_ended _).same State.zones fun _ => rfl).trans (recomputeThermal_zones s)
  rw [percent, zones]
  exact leastPercent_thermalPercent _ d

/-! ## The expiry of an update timer (R55, R56) -/

/-- The zone with its update timer started afresh (R55). -/
def restartTimer (z : ZoneId) (s : State) : State :=
  setZoneRecord z { s.zones.get z with timer := some (Timer.start (s.zones.get z).cfg.interval) } s

section

variable {z : ZoneId} {w : Timer} {s : State} (running : s.inReset = false) (timer : (s.zones.get z).timer = some w)
  (due : w.due = true)

include running timer due

/-- With a silent source the timer restarts only (R56). -/
theorem exec_zoneUpdate_silent
    (silent : weightedSum (fun c => (s.temps.get c).consumer) (s.zones.get z).cfg.sources = none) :
    exec (.zoneUpdate z) s = .next (restartTimer z s) := by
  have temps : ∀ v, (setZoneRecord z v s).temps = s.temps := fun _ => rfl
  simp only [exec, execZoneUpdate, outsideReset_running _ s running, timer, await_of_due w s due, temps, silent]
  rfl

/-- With every source's value the timer restarts and the zone makes its update (R56). -/
theorem exec_zoneUpdate_offered {sum : Int}
    (offered : weightedSum (fun c => (s.temps.get c).consumer) (s.zones.get z).cfg.sources = some sum) :
    exec (.zoneUpdate z) s = .next (endEvent (updateZone z sum (restartTimer z s))) := by
  have temps : ∀ v, (setZoneRecord z v s).temps = s.temps := fun _ => rfl
  simp only [exec, execZoneUpdate, outsideReset_running _ s running, timer, await_of_due w s due, temps, offered]
  rfl

end

/-- Settles O26: a silent source leaves the timer restarted; otherwise raw value, estimate, trip state and ladder
make the zone's record, and notices, a first record and thermal percents go with it. -/
theorem zoneUpdateFollowsTheSkin : Obligations.ZoneUpdateFollowsTheSkin := by
  constructor
  · intro z w s running timer due v silent
    refine exec_zoneUpdate_silent running timer due (weightedSum_none ?_)
    obtain ⟨src, inside, state⟩ := silent
    exact ⟨src, inside, consumer_of_silent state⟩
  intro z w value before top s running timer due v offers runs raw diff moved estimate limit isTop point state descends
  have happens := exec_zoneUpdate_offered running timer due
    (weightedSum_offered fun src inside => consumer_of_offers (offers src inside))
  let restarted := restartTimer z s
  let u : Zone := { v with timer := some (Timer.start v.cfg.interval) }
  have held : restarted.zones.get z = u := PerZone.get_set_self _ _ _
  have zones := updateZone_zones (v := u) (before := before) runs held
    (v.cfg.sources.map fun src => src.weight * value src.channel).sum
  set t := endEvent (updateZone z (v.cfg.sources.map fun src => src.weight * value src.channel).sum restarted)
  let after := ({ u with estimate := some estimate, state := state } : Zone).climbed (v.state = .starting)
    limit estimate
  have stored : t.zones = s.zones.set z after :=
    ((endEvent_ended _).same State.zones fun _ => rfl).trans (zones.trans (perZone_set_set _ _ _ _))
  have record : t.zones.get z = after := by rw [stored, PerZone.get_set_self]
  obtain ⟨rest, jumps, descent, stays, percent⟩ := Zone.climbed_spec
    (v := { u with estimate := some estimate, state := state }) (first := v.state = .starting) isTop
  obtain ⟨-, -, -, ladder, trip, -⟩ := changesRaiseTheirNotices _ _ _ happens (by rintro ⟨_, _, _, ⟨⟩⟩)
  refine ⟨t, after, happens, stored, rest, jumps, descent, stays, percent, fun moves => ladder z (record ▸ moves),
    fun turns => trip z (record ▸ turns), fun armed trips => ?_, recomputed_leastPercent _, ?_⟩
  · have first := updateZone_firstTrip (v := u) (before := before) runs held armed trips
    exact fun none => first none
  · exact ((endEvent_ended _).same State.withoutUpdate fun _ => rfl).trans
      ((updateZone_switched z _ _).same State.withoutUpdate fun _ => rfl)

end Sys2Proof.Machine

/-! # SET_ZONE (R54, R60, R63, R68, R70 to R72) -/

namespace Sys2Proof.Machine

open Sys2Proof

/-! ## The request (R70) -/

/-- The slots of a request name their sources (R70). -/
theorem sourcesOf_slots (sources : List Source) :
    sourcesOf (sources.map fun src => ⟨src.channel.number, src.weight⟩) = some sources := by
  induction sources with
  | nil => rfl
  | cons src rest ih => rw [List.map_cons, sourcesOf, TempId.ofNumber_number, ih]

theorem weightTotal_eq (sources : List Source) : weightTotal sources = (sources.map (·.weight)).sum := by
  induction sources with
  | nil => rfl
  | cons src rest ih => rw [weightTotal, ih, List.map_cons, List.sum_cons]

/-- The interval of an update goes in steps of 100 from 100 to 10000 (R70). -/
theorem clampStep_hundreds (x : Nat) : clampStep 100 100 10000 x = max 100 (min 10000 (100 * (x / 100))) := by
  rw [clampStep, clampNat_eq _ _ _ (by decide)]
  omega

/-- A zone without influence influences none of the three domains (R70). -/
theorem influence_none_iff (x : PerDomain Bool) : x = ⟨false, false, false⟩ ↔ (x.d0 || x.d1 || x.d2) = false := by
  obtain ⟨a, b, c⟩ := x
  simp [and_assoc]

/-- The validation of SET_ZONE refuses exactly what R70 names. -/
theorem zoneValid_iff (r : ZoneRequest) (sources : List Source) (s : State) :
    zoneValid r sources s = false ↔
      r.alpha = 0 ∨ 256 < r.alpha ∨ 100 < r.hysteresis ∨ r.descentDwell = 0 ∨ 15 < r.descentDwell ∨
      150 < r.tripMargin ∨ 3 < r.sourceCount ∨ (∃ src ∈ sources, src.weight = 0 ∨ 256 < src.weight) ∨
      (sources ≠ [] ∧ (¬(sources.map (·.channel)).Nodup ∨ (sources.map (·.weight)).sum ≠ 256)) ∨
      (r.enabled = true ∧ (sources = [] ∨ (∃ src ∈ sources, (s.temps.get src.channel).cfg.enabled = false) ∨
        r.influence = ⟨false, false, false⟩)) := by
  rw [influence_none_iff, ← weightTotal_eq]
  simp only [zoneValid, Bool.and_eq_false_iff, Bool.or_eq_false_iff, decide_eq_false_iff_not, List.all_eq_false,
    Bool.not_eq_false', not_le, Nat.lt_one_iff, List.isEmpty_eq_false_iff, List.isEmpty_iff, beq_eq_false_iff_ne,
    Bool.not_eq_true, or_assoc, ne_eq]

/-! ## A zone restarted or disabled (R71, R72) -/

/-- A zone that SET_ZONE restarts, enables or disables (R71, R72). -/
def Zone.renewed (v : Zone) (cfg : ZoneConfig) : Zone :=
  { v.emptied (if cfg.enabled then .starting else .off) with
    cfg := cfg, timer := if cfg.enabled then some (Timer.start cfg.interval) else none }

theorem leaveZone_logged (z : ZoneId) (v : Zone) (s : State) : Logged s (leaveZone z v s) := by
  unfold leaveZone
  dsimp only
  split <;> split <;> rfl

section

variable {z : ZoneId} {cfg : ZoneConfig} {s : State}

/-- In SAFE a zone that follows its sources writes its flags, and no other zone's record (R60, R63). -/
theorem followSources_safe (mode : s.mode = .safe) :
    Logged (setZoneRecord z ((s.zones.get z).following s.channelState) s) (followSources z s) := by
  unfold followSources
  dsimp only
  split
  · rfl
  · split
    · rw [occurFatal_safe]
      · exact occur_logged _ _ _ _
      · exact mode
    · exact endCondition_logged _ _ _

/-- The fields of a zone that stays disabled are stored (R72). -/
theorem configureZone_stored (changed : cfg ≠ (s.zones.get z).cfg) (was : (s.zones.get z).cfg.enabled = false)
    (is : cfg.enabled = false) : configureZone z cfg s = setZoneRecord z { s.zones.get z with cfg := cfg } s := by
  unfold configureZone
  dsimp only
  rw [if_neg changed, was, is]

/-- A zone that is or becomes enabled is renewed, and follows its sources (R71, R72). -/
theorem configureZone_renewed (changed : cfg ≠ (s.zones.get z).cfg)
    (on : (s.zones.get z).cfg.enabled = true ∨ cfg.enabled = true) :
    configureZone z cfg s =
      endEvent (recomputeThermal (followSources z
        (leaveZone z (s.zones.get z) (setZoneRecord z ((s.zones.get z).renewed cfg) s)))) := by
  unfold configureZone Zone.renewed
  dsimp only
  rw [if_neg changed]
  cases is : cfg.enabled with
  | false =>
    rw [on.resolve_right (by simp [is])]
    rfl
  | true => cases (s.zones.get z).cfg.enabled <;> rfl

/-- What is left of a renewed zone is its record with the flags of its sources. -/
theorem configureZone_follows (mode : s.mode = .safe) (changed : cfg ≠ (s.zones.get z).cfg)
    (on : (s.zones.get z).cfg.enabled = true ∨ cfg.enabled = true) :
    (configureZone z cfg s).zones = s.zones.set z (((s.zones.get z).renewed cfg).following s.channelState) ∧
      (configureZone z cfg s).withoutUpdate = s.withoutUpdate := by
  let stored := setZoneRecord z ((s.zones.get z).renewed cfg) s
  let left := leaveZone z (s.zones.get z) stored
  have logged : Logged stored left := leaveZone_logged z _ _
  have zones : left.zones = s.zones.set z ((s.zones.get z).renewed cfg) := logged.same State.zones fun _ => rfl
  have follows : Logged (setZoneRecord z ((left.zones.get z).following left.channelState) left)
      (followSources z left) :=
    followSources_safe ((logged.same State.mode fun _ => rfl).trans mode)
  have channels : left.channelState = s.channelState := logged.same State.channelState fun _ => rfl
  rw [configureZone_renewed changed on]
  constructor
  · rw [(endEvent_ended _).same State.zones fun _ => rfl, recomputeThermal_zones, follows.same State.zones fun _ => rfl,
      setZoneRecord_zones, channels, zones, PerZone.get_set_self, perZone_set_set]
  · exact ((endEvent_ended _).same State.withoutUpdate fun _ => rfl).trans
      (((recomputeThermal_limited _).same State.withoutUpdate fun _ => rfl).trans
        ((follows.same State.withoutUpdate fun _ => rfl).trans (logged.same State.withoutUpdate fun _ => rfl)))

end

theorem degradedBy_eq (cfg : ZoneConfig) (state : TempId → ChannelState) :
    degradedBy cfg state = decide (cfg.enabled = true ∧ ∃ src ∈ cfg.sources, state src.channel = .failed) := by
  rw [Bool.eq_iff_iff]
  simp [degradedBy]

theorem blindBy_eq {cfg : ZoneConfig} (sourced : cfg.enabled = true → cfg.sources ≠ [])
    (state : TempId → ChannelState) :
    blindBy cfg state = decide (cfg.enabled = true ∧ ∀ src ∈ cfg.sources, state src.channel = .failed) := by
  rw [Bool.eq_iff_iff]
  simp only [blindBy, Bool.and_eq_true, Bool.not_eq_true', List.isEmpty_eq_false_iff, List.all_eq_true, beq_iff_eq,
    decide_eq_true_iff, and_assoc]
  exact and_congr_right fun on => and_iff_right (sourced on)

/-- Settles O27: the validation of R70, and each of the same, the stored and the renewed zone. -/
theorem setZoneConfiguresTheZone : Obligations.SetZoneConfiguresTheZone := by
  intro body r z sources s running mode shape named slots v e invalid interval cfg failed
  have taken : ∀ {t reply}, ownSetZone r s = (t, reply) → e = .next (answer .platform .setZone reply t) :=
    fun own => exec_served (kind := .setZone) running (admitted_safe rfl mode) (served_eq_some.mpr ⟨r, shape, own⟩)
  have own : ownSetZone r s =
      if zoneValid r sources s then (configureZone z cfg s, .taken (interval != r.interval) (leBytes 2 interval))
      else (s, .bare .invalid) := by
    rw [ownSetZone, named, ZoneId.ofNumber_number, slots, sourcesOf_slots]
    simp only [clampStep_hundreds]
    rfl
  have refused : zoneValid r sources s = false ↔ invalid := zoneValid_iff r sources s
  refine ⟨fun bad => ?_, fun good => ?_⟩
  · rw [refused.mpr bad] at own
    exact taken own
  rw [if_pos (by rwa [← Bool.not_eq_false, refused])] at own
  have sourced : cfg.enabled = true → cfg.sources ≠ [] := by
    intro (on : r.enabled = true) (none : sources = [])
    exact good (by simp [invalid, on, none])
  refine ⟨configureZone z cfg s, (taken own).trans (by rw [answer_taken]; rfl), fun same => if_pos same,
    configureZone_stored, fun changed on => ⟨?_, fun d => ?_⟩, ?_⟩
  · rw [(configureZone_follows mode changed on).1, Zone.following, degradedBy_eq,
      blindBy_eq (cfg := (v.renewed cfg).cfg) sourced]
    rfl
  · rw [configureZone_renewed changed on]
    exact recomputed_leastPercent _ d
  · by_cases same : cfg = v.cfg
    · rw [configureZone, if_pos same]
    by_cases on : v.cfg.enabled = true ∨ cfg.enabled = true
    · exact (configureZone_follows mode same on).2
    · rw [not_or, Bool.not_eq_true, Bool.not_eq_true] at on
      rw [configureZone_stored same on.1 on.2]
      rfl

end Sys2Proof.Machine
